-- ==== Sys2Proof/Word.lean ====
section
/-! DEFINITION. The one bit-vector type of the model: a byte of an action word or of a bus access.

Every value the spec names (interrupt IDs, target indices, priorities, thresholds, register values `w` and `v`) is an
"unsigned integer" of a width that is a parameter of the configuration (spec/00_scope.md R7 and section 6,
spec/30_encoding.md R92), so it is a `Nat` here, masked by `Nat` bit operations where a rule masks it. -/

namespace Sys2Proof

/-- Eight bits: the unit of a bus access (spec/20_memory.md R64) and of the model's own action word. -/
abbrev Byte := BitVec 8

end Sys2Proof
end

