-- ==== Sys2Proof/Machine/Message.lean ====
section
/-! DEFINITION. The messages of spec/30_encoding.md R92, the responses, and the events of the environment and the
scheduler that one step takes. -/

namespace Sys2Proof.Machine

/-- A message from a requester, waiting in its input queue (spec/30_encoding.md R92, the rows whose direction is
"requester to core" or "requester to gateway s"; spec/10_state.md R33). -/
inductive Msg where
  /-- write the priority of source `s` -/
  | wprio (s w : Nat)
  /-- write enable register `k` of target `t` -/
  | wie (t k w : Nat)
  /-- write the threshold of target `t` -/
  | wthr (t w : Nat)
  /-- read the priority of source `s` -/
  | rprio (s : Nat)
  /-- read enable register `k` of target `t` -/
  | rie (t k : Nat)
  /-- read the threshold of target `t` -/
  | rthr (t : Nat)
  /-- read pending register `k` -/
  | rip (k : Nat)
  /-- claim for target `t` -/
  | claim (t : Nat)
  /-- completion on behalf of target `t`, for the gateway of source `s` (R93) -/
  | complete (t s : Nat)
deriving DecidableEq, Repr, Inhabited

/-- A response from the core to a requester (spec/30_encoding.md R92; spec/10_state.md R34). -/
inductive Resp where
  /-- claim response: an interrupt ID, or 0 for "no interrupt" -/
  | cresp (id : Nat)
  /-- the value of a register read -/
  | rresp (v : Nat)
deriving DecidableEq, Repr, Inhabited

/-- What one step of the whole system does, chosen by the scheduler or the environment (spec/10_state.md R22,
spec/20_memory.md R70). DESIGN CHOICE (log 5, log 11). -/
inductive Event where
  /-- one of the 18 actions of spec/30_encoding.md R91, given by its action word (log 8) -/
  | action (word : List Byte)
  /-- requester `r` sends message `m` (spec/00_scope.md section 6, "send M") -/
  | send (r : Nat) (m : Msg)
  /-- requester `r` reads `n` bytes at bus address `addr` (`MemRead` of spec/00_scope.md section 6) -/
  | busRead (r addr n : Nat)
  /-- requester `r` writes `bytes`, lowest address first, at bus address `addr` (`MemWrite`) -/
  | busWrite (r addr : Nat) (bytes : List Byte)
deriving DecidableEq, Repr, Inhabited

end Sys2Proof.Machine
end

