-- ==== Sys2Proof/Config.lean ====
section
/-! DEFINITION. The configuration record `Cfg` of spec/00_scope.md R7, and the one free value of the model.

Every size and every hardwired bit is open in the spec (R6, decision D2). `Cfg` is a parameter of the step relation that
no action changes (R7); `State` carries it (log 1), so a statement about every state is about every configuration. -/

namespace Sys2Proof

/-- `ieKind[t][s]` (spec/00_scope.md R7): whether an enable bit is read-write or hardwired. -/
inductive IeKind where
  | rw
  | hard0
  | hard1
deriving DecidableEq, Repr, Inhabited

/-- `gwKind[s]` (spec/00_scope.md R7) with `cntMax[s]` for a counting gateway, `none` meaning unbounded. -/
inductive GwKind where
  | level
  | edgeIgnore
  | edgeCount (cntMax : Option Nat)
deriving DecidableEq, Repr, Inhabited

/-- The privilege modes a hart context can have (spec/60_exceptions.md R201). -/
inductive Mode where
  | m
  | s
  | u
deriving DecidableEq, Repr, Inhabited

/-- `tgtKind[t]` (spec/00_scope.md R7). -/
inductive TgtKind where
  | hartContext (hart : Nat) (mode : Mode)
  | other
deriving DecidableEq, Repr, Inhabited

/-- `notifyModel` (spec/00_scope.md R7, spec/43_notification.md R171). -/
inductive NotifyModel where
  | wire
  | sample
  | anyPast
deriving DecidableEq, Repr, Inhabited

/-- The register a bus read reaches; these are all a read may reach (spec/30_encoding.md R100). -/
inductive ReadPort where
  | prio (s : Nat)
  | ie (t k : Nat)
  | thr (t : Nat)
  | ip (k : Nat)
  | claim (t : Nat)
deriving DecidableEq, Repr, Inhabited

/-- The register a bus write reaches; these are all a write may reach (spec/30_encoding.md R100). -/
inductive WritePort where
  | prio (s : Nat)
  | ie (t k : Nat)
  | thr (t : Nat)
  | complete (t : Nat)
deriving DecidableEq, Repr, Inhabited

/-- `RegMap` (spec/30_encoding.md R100), as plain data. DESIGN CHOICE (log 15). -/
inductive RegMap where
  /-- no bus access has a meaning: a machine used at message level only (spec/20_memory.md R61) -/
  | unmapped
  /-- registers of `xw` bytes at listed addresses, on a platform whose protection mechanism grants regions of `granule`
  bytes, each at a multiple of `granule`, separately (R100, spec/20_memory.md R63) -/
  | table (xw granule : Nat) (reads : List (Nat × ReadPort)) (writes : List (Nat × WritePort))
  /-- the reference instance of R101 and R102 at base address `base` -/
  | reference (base : Nat)
deriving DecidableEq, Repr, Inhabited

/-- What the configuration says of one interrupt source. -/
structure SourceCfg where
  /-- `gwKind[s]`, with `cntMax[s]` -/
  gw : GwKind
  /-- `prioOne[s]`: priority bits hardwired to 1 -/
  prioOne : Nat
  /-- `prioVar[s]`: priority bits that are read-write -/
  prioVar : Nat
deriving DecidableEq, Repr, Inhabited

/-- What the configuration says of one interrupt target. -/
structure TargetCfg where
  /-- `tgtKind[t]` -/
  kind : TgtKind
  /-- `thrVar[t]`: threshold bits that are read-write -/
  thrVar : Nat
  /-- `ieKind[t][s]` for `s = 1, 2, …, N` -/
  ieKinds : List IeKind
deriving DecidableEq, Repr, Inhabited

/-- A state of spec/10_state.md sections 3 to 6, the type of `Init` (spec/00_scope.md R7). A list over sources has source
`s` at position `s - 1`, a list over targets target `t` at position `t`, a list over requesters requester `r` at position
`r`, as in `Machine.State`. -/
structure InitState where
  ip : List Bool
  prio : List Nat
  ie : List (List Bool)
  thr : List Nat
  busy : List Bool
  cnt : List Nat
  line : List Bool
  reqQ : List Nat
  inQ : List (List Machine.Msg)
  outQ : List (List Machine.Resp)
  notif : List Bool
  seen0 : List Bool
  seen1 : List Bool
deriving DecidableEq, Repr, Inhabited

/-- The configuration record (spec/00_scope.md R7). `N` is the length of `sources`, source `s` at position `s - 1`;
`T` is the length of `targets`, target `t` at position `t`; the requesters are `0 … reqs - 1` (log 10). -/
structure Cfg where
  /-- `PW`: bits of a priority and of a threshold -/
  pw : Nat
  sources : List SourceCfg
  targets : List TargetCfg
  /-- `Req`: how many requesters there are -/
  reqs : Nat
  notifyModel : NotifyModel
  /-- `G`: how many enable or pending bits a register packs -/
  g : Nat
  regMap : RegMap
  /-- `Init`: the state after reset (spec/70_reset_and_hazards.md R230); `none` where the platform says nothing, which is
  the default of R231 (log 3) -/
  init : Option InitState
deriving DecidableEq, Repr, Inhabited

/-- The event that happens at the `i`-th step the agenda leaves open: a FREE VALUE, so that a claim about a run holds for
every schedule and every environment (spec/20_memory.md R70: "any of them may be the next"). DESIGN CHOICE, safe (log 5). -/
opaque Config.choice : Nat → Machine.Event

/-- `CFG-A` of spec/95_test_vectors.md section 1 with the reference register map at that file's base address: the
configuration of `State.reset`. DESIGN CHOICE, unsafe (log 2): the spec leaves every field open. -/
def Config.vectorsA : Cfg where
  pw := 3
  sources := [⟨.level, 0, 7⟩, ⟨.level, 0, 7⟩, ⟨.edgeIgnore, 0, 7⟩, ⟨.edgeCount none, 0, 7⟩]
  targets := [⟨.hartContext 0 .m, 7, [.rw, .rw, .rw, .rw]⟩, ⟨.hartContext 1 .m, 7, [.rw, .rw, .rw, .rw]⟩]
  reqs := 2
  notifyModel := .anyPast
  g := 32
  regMap := .reference 0x0C000000
  init := none

end Sys2Proof
end

