-- ==== Sys2Proof/Syntax.lean ====
section
/-! DEFINITION. The 18 atomic actions of spec/30_encoding.md R91, one constructor for each row of spec/opcode_table.json.

A message action names, beside the operands of its row, the requester `r` whose queue head it processes: its guard is
"message at the head of inQ[r]", and its response goes to that requester (spec/42_claim_completion.md R152; log 10). -/

namespace Sys2Proof

inductive Instr where
  /-- `LINE s, b`: the level of source `s` becomes `b` (R111) -/
  | line (s : Nat) (b : Bool)
  /-- `FWD.L s`: a level gateway forwards a request (R112) -/
  | fwdL (s : Nat)
  /-- `EDGE.I s`: a matching edge at an ignoring gateway (R113) -/
  | edgeI (s : Nat)
  /-- `EDGE.C s`: a matching edge at a counting gateway (R114) -/
  | edgeC (s : Nat)
  /-- `FWD.C s`: a counting gateway forwards a request (R115) -/
  | fwdC (s : Nat)
  /-- `MSI s`: a message-signalled interrupt arrives (R116) -/
  | msi (s : Nat)
  /-- `WPRIO s, w`: write the priority of source `s` (R131) -/
  | wprio (r s w : Nat)
  /-- `WIE t, k, w`: write enable register `k` of target `t` (R132) -/
  | wie (r t k w : Nat)
  /-- `WTHR t, w`: write the threshold of target `t` (R133) -/
  | wthr (r t w : Nat)
  /-- `RPRIO s`: read the priority of source `s` (R135) -/
  | rprio (r s : Nat)
  /-- `RIE t, k`: read enable register `k` of target `t` (R136) -/
  | rie (r t k : Nat)
  /-- `RTHR t`: read the threshold of target `t` (R137) -/
  | rthr (r t : Nat)
  /-- `RIP k`: read pending register `k` (R138) -/
  | rip (r k : Nat)
  /-- `ACCEPT s`: the core accepts a waiting request of source `s` (R150) -/
  | accept (s : Nat)
  /-- `CLAIM t`: return the best eligible source for target `t` (R152) -/
  | claim (r t : Nat)
  /-- `COMPLETE t, s`: the gateway of `s` stops awaiting completion (R154) -/
  | complete (r t s : Nat)
  /-- `RESP r`: deliver the oldest response to requester `r` (R159) -/
  | resp (r : Nat)
  /-- `NOTIFY t, v`: the target's view of its EIP becomes `v` (R171) -/
  | notify (t : Nat) (v : Bool)
deriving DecidableEq, Repr, Inhabited

end Sys2Proof
end

