-- ==== Sys2Proof/Decode.lean ====
section
/-! DEFINITION. Action words. The spec gives "no bit-level encoding of anything" (spec/30_encoding.md R90) and null
masks in spec/opcode_table.json, so the word an event carries is the model's OWN: DESIGN CHOICE (log 8).

A word is a first byte, then the operands of the row in the order of `Instr`'s fields. The first byte holds in bits 7..2
the row's number in spec/opcode_table.json counted from 1, and in bits 1..0 the one-bit operand (`b` of LINE, `v` of
NOTIFY; the table's `fields` give those bits) or 0. An operand is an unbounded natural (R92) in groups of seven bits, the
least significant group first, bit 7 of a byte set where another group follows. -/

namespace Sys2Proof

/-- Why bytes are no action word. -/
inductive DecodeError where
  /-- there is no byte at all -/
  | empty
  /-- bits 7..2 of the first byte are no row's number -/
  | reservedRow (row : Nat)
  /-- bits 1..0 of the first byte are not a value the row allows -/
  | reservedField (row field : Nat)
  /-- the bytes end inside an operand -/
  | truncated
  /-- something other than zero padding follows the word -/
  | trailing
deriving DecidableEq, Repr

/-- One operand and the bytes after it. -/
def decodeNat : List Byte → Option (Nat × List Byte)
  | [] => none
  | b :: bs =>
    if b.toNat < 128 then some (b.toNat, bs)
    else
      match decodeNat bs with
      | none => none
      | some (hi, rest) => some (b.toNat - 128 + 128 * hi, rest)

/-- `n` operands and the bytes after them. -/
def decodeNats : Nat → List Byte → Option (List Nat × List Byte)
  | 0, bs => some ([], bs)
  | n + 1, bs =>
    match decodeNat bs with
    | none => none
    | some (x, rest) =>
      match decodeNats n rest with
      | none => none
      | some (xs, rest') => some (x :: xs, rest')

/-- How many operands follow the first byte in row `row`; `none` for a number that is no row's. -/
def operandCount (row : Nat) : Option Nat :=
  match row with
  | 1 => some 1
  | 2 => some 1
  | 3 => some 1
  | 4 => some 1
  | 5 => some 1
  | 6 => some 1
  | 7 => some 3
  | 8 => some 4
  | 9 => some 3
  | 10 => some 2
  | 11 => some 3
  | 12 => some 2
  | 13 => some 2
  | 14 => some 1
  | 15 => some 2
  | 16 => some 3
  | 17 => some 1
  | 18 => some 1
  | _ => none

/-- The greatest value bits 1..0 of the first byte may hold: 1 in the rows with a one-bit operand, else 0. -/
def fieldMax (row : Nat) : Nat := if row = 1 ∨ row = 18 then 1 else 0

/-- The action of row `row` with one-bit operand `b` and operands `xs`. -/
def buildInstr (row : Nat) (b : Bool) (xs : List Nat) : Option Instr :=
  match row, xs with
  | 1, [s] => some (.line s b)
  | 2, [s] => some (.fwdL s)
  | 3, [s] => some (.edgeI s)
  | 4, [s] => some (.edgeC s)
  | 5, [s] => some (.fwdC s)
  | 6, [s] => some (.msi s)
  | 7, [r, s, w] => some (.wprio r s w)
  | 8, [r, t, k, w] => some (.wie r t k w)
  | 9, [r, t, w] => some (.wthr r t w)
  | 10, [r, s] => some (.rprio r s)
  | 11, [r, t, k] => some (.rie r t k)
  | 12, [r, t] => some (.rthr r t)
  | 13, [r, k] => some (.rip r k)
  | 14, [s] => some (.accept s)
  | 15, [r, t] => some (.claim r t)
  | 16, [r, t, s] => some (.complete r t s)
  | 17, [r] => some (.resp r)
  | 18, [t] => some (.notify t b)
  | _, _ => none

/-- The action at the start of the bytes and the bytes after it, or the name of what is wrong. -/
def decode : List Byte → Except DecodeError (Instr × List Byte)
  | [] => .error .empty
  | b :: bs =>
    match operandCount (b.toNat / 4) with
    | none => .error (.reservedRow (b.toNat / 4))
    | some n =>
      if b.toNat % 4 ≤ fieldMax (b.toNat / 4) then
        match decodeNats n bs with
        | none => .error .truncated
        | some (xs, rest) =>
          match buildInstr (b.toNat / 4) (decide (b.toNat % 4 = 1)) xs with
          | some i => .ok (i, rest)
          | none => .error (.reservedRow (b.toNat / 4))
      else .error (.reservedField (b.toNat / 4) (b.toNat % 4))

/-- The action a whole word spells; only zero bytes may follow it. -/
def decodeWord (bs : List Byte) : Except DecodeError Instr :=
  match decode bs with
  | .error e => .error e
  | .ok (i, rest) => if rest.all (· == 0) then .ok i else .error .trailing

/-- The seven-bit groups of `n`, with room for `fuel` groups before the last. -/
def encodeNatFuel : Nat → Nat → List Byte
  | 0, n => [BitVec.ofNat 8 n]
  | fuel + 1, n =>
    if n < 128 then [BitVec.ofNat 8 n]
    else BitVec.ofNat 8 (n % 128 + 128) :: encodeNatFuel fuel (n / 128)

/-- One operand; a number has no more seven-bit groups than bits. -/
def encodeNat (n : Nat) : List Byte := encodeNatFuel n.log2 n

/-- The first byte of a word. -/
def headByte (row : Nat) (b : Bool) : Byte := BitVec.ofNat 8 (4 * row + b.toNat)

/-- The row's number in spec/opcode_table.json, counted from 1. -/
def Instr.row : Instr → Nat
  | .line _ _ => 1
  | .fwdL _ => 2
  | .edgeI _ => 3
  | .edgeC _ => 4
  | .fwdC _ => 5
  | .msi _ => 6
  | .wprio _ _ _ => 7
  | .wie _ _ _ _ => 8
  | .wthr _ _ _ => 9
  | .rprio _ _ => 10
  | .rie _ _ _ => 11
  | .rthr _ _ => 12
  | .rip _ _ => 13
  | .accept _ => 14
  | .claim _ _ => 15
  | .complete _ _ _ => 16
  | .resp _ => 17
  | .notify _ _ => 18

/-- The one-bit operand, false where the row has none. -/
def Instr.bit : Instr → Bool
  | .line _ b => b
  | .notify _ v => v
  | .fwdL _ | .edgeI _ | .edgeC _ | .fwdC _ | .msi _ | .wprio _ _ _ | .wie _ _ _ _ | .wthr _ _ _ | .rprio _ _
  | .rie _ _ _ | .rthr _ _ | .rip _ _ | .accept _ | .claim _ _ | .complete _ _ _ | .resp _ => false

/-- The other operands, in the order of the fields. -/
def Instr.operands : Instr → List Nat
  | .line s _ => [s]
  | .fwdL s => [s]
  | .edgeI s => [s]
  | .edgeC s => [s]
  | .fwdC s => [s]
  | .msi s => [s]
  | .wprio r s w => [r, s, w]
  | .wie r t k w => [r, t, k, w]
  | .wthr r t w => [r, t, w]
  | .rprio r s => [r, s]
  | .rie r t k => [r, t, k]
  | .rthr r t => [r, t]
  | .rip r k => [r, k]
  | .accept s => [s]
  | .claim r t => [r, t]
  | .complete r t s => [r, t, s]
  | .resp r => [r]
  | .notify t _ => [t]

/-- The action's word. -/
def encode (i : Instr) : List Byte := headByte i.row i.bit :: i.operands.flatMap encodeNat

/-- The bytes of an instruction whose bits are `w`, the first byte in bits 7..0, the second in bits 15..8; `n` bytes. -/
def tableBytes : Nat → Nat → List Byte
  | 0, _ => []
  | n + 1, w => BitVec.ofNat 8 w :: tableBytes n (w / 256)

/-- The word whose first `nbits` bits are `w` and whose other bits are 0: four zero bytes hold the operands of any row. -/
def tableWord (nbits w : Nat) : List Byte := tableBytes ((nbits + 7) / 8) w ++ [0, 0, 0, 0]

/-- The action the decoder reads from the bits `w` (for the host). -/
def decodeTableWord (nbits w : Nat) : Option Instr :=
  match decodeWord (tableWord nbits w) with
  | .ok i => some i
  | .error _ => none

end Sys2Proof
end

