-- ==== Sys2Proof/Machine/Operands.lean ====
section
/-! DEFINITION. Operands: the ranges of spec/30_encoding.md R92, the WARL legalisation functions of
spec/10_state.md R41 to R43, the counter bound of R114, and the packing of bits into registers (R94). All of it depends
on the configuration alone. -/

namespace Sys2Proof.Machine

/-- Element `s` of a list numbered from 1; `d` for number 0 and past the end. There is no source 0
(spec/10_state.md R23). -/
def at1 {α : Type} (d : α) (l : List α) (s : Nat) : α :=
  match s with
  | 0 => d
  | k + 1 => l.getD k d

/-- `l` with element `s`, numbered from 1, replaced; `l` where there is no such element. -/
def set1 {α : Type} (l : List α) (s : Nat) (v : α) : List α :=
  match s with
  | 0 => l
  | k + 1 => l.set k v

/-- The entry of source `s`, if there is one: the sources are the IDs `1 … N` (spec/10_state.md R23). -/
def sourceCfg? (c : Cfg) (s : Nat) : Option SourceCfg :=
  match s with
  | 0 => none
  | k + 1 => c.sources[k]?

/-- `N`: the number of sources. -/
def numSources (c : Cfg) : Nat := c.sources.length

/-- `T`: the number of targets. -/
def numTargets (c : Cfg) : Nat := c.targets.length

/-- `s` in `1 … N`. -/
def isSource (c : Cfg) (s : Nat) : Bool := decide (1 ≤ s ∧ s ≤ numSources c)

/-- `t` in `0 … T - 1`. -/
def isTarget (c : Cfg) (t : Nat) : Bool := decide (t < numTargets c)

/-- `r` is in `Req`. -/
def isReq (c : Cfg) (r : Nat) : Bool := decide (r < c.reqs)

/-- `k` in `0 … floor(N / G)` (spec/30_encoding.md R92). -/
def isPackedReg (c : Cfg) (k : Nat) : Bool := decide (k ≤ numSources c / c.g)

/-- `s` is a source with `gwKind[s] = Level`. -/
def isLevel (c : Cfg) (s : Nat) : Bool :=
  match sourceCfg? c s with
  | some ⟨.level, _, _⟩ => true
  | _ => false

/-- `s` is a source with `gwKind[s] = EdgeIgnore`. -/
def isEdgeIgnore (c : Cfg) (s : Nat) : Bool :=
  match sourceCfg? c s with
  | some ⟨.edgeIgnore, _, _⟩ => true
  | _ => false

/-- `s` is a source with `gwKind[s] = EdgeCount`. -/
def isEdgeCount (c : Cfg) (s : Nat) : Bool :=
  match sourceCfg? c s with
  | some ⟨.edgeCount _, _, _⟩ => true
  | _ => false

/-- `cntMax[s]`; `none` is unbounded. -/
def cntMax (c : Cfg) (s : Nat) : Option Nat :=
  match sourceCfg? c s with
  | some ⟨.edgeCount m, _, _⟩ => m
  | _ => none

/-- `prioOne[s]`. -/
def prioOne (c : Cfg) (s : Nat) : Nat :=
  match sourceCfg? c s with
  | some x => x.prioOne
  | none => 0

/-- `prioVar[s]`. -/
def prioVar (c : Cfg) (s : Nat) : Nat :=
  match sourceCfg? c s with
  | some x => x.prioVar
  | none => 0

/-- `thrVar[t]`. -/
def thrVar (c : Cfg) (t : Nat) : Nat :=
  match c.targets[t]? with
  | some x => x.thrVar
  | none => 0

/-- `ieKind[t][s]`; a pair with no bit behind it counts as hardwired to 0: it reads 0 and ignores writes
(spec/30_encoding.md R94). -/
def ieKind (c : Cfg) (t s : Nat) : IeKind :=
  match c.targets[t]? with
  | some x => at1 .hard0 x.ieKinds s
  | none => .hard0

/-- `w[PW-1:0]`. -/
def lowPw (c : Cfg) (w : Nat) : Nat := w % 2 ^ c.pw

/-- `legalPrio(s, w)` (spec/10_state.md R41): `prioOne[s] OR (w[PW-1:0] AND prioVar[s])`. -/
def legalPrio (c : Cfg) (s w : Nat) : Nat := prioOne c s ||| (lowPw c w &&& prioVar c s)

/-- `legalThr(t, w)` (spec/10_state.md R42): `w[PW-1:0] AND thrVar[t]`. -/
def legalThr (c : Cfg) (t w : Nat) : Nat := lowPw c w &&& thrVar c t

/-- `legalIE(t, s, b, old)` (spec/10_state.md R43). The rule names `old` and no case of it uses `old`. -/
def legalIE (c : Cfg) (t s : Nat) (b _old : Bool) : Bool :=
  match ieKind c t s with
  | .rw => b
  | .hard0 => false
  | .hard1 => true

/-- `min(n, cntMax[s])` (spec/40_gateways.md R114). -/
def saturate (c : Cfg) (s n : Nat) : Nat :=
  match cntMax c s with
  | some m => min n m
  | none => n

/-- The sources `1 … N`, in order. -/
def sourceIds (c : Cfg) : List Nat := (List.range (numSources c)).map (· + 1)

/-- The value of packed register `k` whose bit `i` is `f (k*G+i)` where that ID exists and 0 elsewhere
(spec/30_encoding.md R94; spec/41_registers.md R136, R138). -/
def packReg (c : Cfg) (f : Nat → Bool) (k : Nat) : Nat :=
  (List.range c.g).foldl
    (fun v i => if isSource c (k * c.g + i) && f (k * c.g + i) then v ||| (1 <<< i) else v) 0

/-- Bit `s - k*G` of the written value `w` where register `k` holds the ID `s` (spec/30_encoding.md R94). -/
def packedBit? (c : Cfg) (k w s : Nat) : Option Bool :=
  if isSource c s ∧ k * c.g ≤ s ∧ s < k * c.g + c.g then some (w.testBit (s - k * c.g)) else none

/-- The row `IE[t]` after `WIE t, k, w` (spec/41_registers.md R132): each bit that register `k` holds is legalised,
the others keep their values. Position `j` of the row is source `j + 1`. -/
def writeIeRow (c : Cfg) (t k w : Nat) (row : List Bool) : List Bool :=
  row.mapIdx fun j old =>
    match packedBit? c k w (j + 1) with
    | some b => legalIE c t (j + 1) b old
    | none => old

/-- The ranges of spec/30_encoding.md R92 for the fields of a requester's message. -/
def msgInRange (c : Cfg) : Msg → Bool
  | .wprio s _ => isSource c s
  | .wie t k _ => isTarget c t && isPackedReg c k
  | .wthr t _ => isTarget c t
  | .rprio s => isSource c s
  | .rie t k => isTarget c t && isPackedReg c k
  | .rthr t => isTarget c t
  | .rip k => isPackedReg c k
  | .claim t => isTarget c t
  | .complete t s => isTarget c t && isSource c s

/-- The range of spec/30_encoding.md R92 for a claim response: `id` in `0 … N`. -/
def respInRange (c : Cfg) : Resp → Bool
  | .cresp id => decide (id ≤ numSources c)
  | .rresp _ => true

/-- The unsigned integer whose least significant byte is first (spec/20_memory.md R64). -/
def leValue : List Byte → Nat
  | [] => 0
  | b :: bs => b.toNat + 256 * leValue bs

/-- The `n` low bytes of a value, least significant first (spec/20_memory.md R64). -/
def leBytes : Nat → Nat → List Byte
  | 0, _ => []
  | n + 1, v => BitVec.ofNat 8 v :: leBytes n (v / 256)

end Sys2Proof.Machine
end

