-- ==== Sys2Proof/Machine/State.lean ====
section
/-! DEFINITION. The state of spec/10_state.md sections 3 to 6 as plain data, the reasons a step can stop, and the state
after reset (spec/70_reset_and_hazards.md R231). -/

namespace Sys2Proof.Machine

/-- The state of the machine. A list over sources has source `s` at position `s - 1`, a list over targets target `t` at
position `t`, a list over requesters requester `r` at position `r`. Read it through the accessors of Machine/Ops.lean. -/
structure State where
  /-- the configuration (spec/00_scope.md R7): no action changes it (log 1) -/
  cfg : Cfg
  /-- `IP[s]` (R25) -/
  ip : List Bool
  /-- `prio[s]` (R26) -/
  prio : List Nat
  /-- `IE[t][s]` (R27): for each target its row over sources -/
  ie : List (List Bool)
  /-- `thr[t]` (R28) -/
  thr : List Nat
  /-- `busy[s]` (R29) -/
  busy : List Bool
  /-- `cnt[s]` (R30); 0 where the gateway does not count (log 18) -/
  cnt : List Nat
  /-- `line[s]` (R31); false where the gateway is not level-sensitive (log 18) -/
  line : List Bool
  /-- `reqQ[s]` (R32): how many requests of the source wait for the core -/
  reqQ : List Nat
  /-- `inQ[r]` (R33), oldest message first -/
  inQ : List (List Msg)
  /-- `outQ[r]` (R34), oldest response first -/
  outQ : List (List Resp)
  /-- the responses requester `r` has received (R159), oldest first; the model's own (log 12) -/
  rcvd : List (List Resp)
  /-- `notif[t]` (R35) -/
  notif : List Bool
  /-- `seen0[t]` (R36) -/
  seen0 : List Bool
  /-- `seen1[t]` (R36) -/
  seen1 : List Bool
  /-- the events already chosen for the next steps, next first; the model's own (log 5) -/
  agenda : List Event
  /-- how many free choices have been taken; the model's own (log 5) -/
  tick : Nat
deriving DecidableEq, Repr

/-- There is no fault: "The PLIC raises no synchronous exception and the source defines no error response to any access"
(spec/60_exceptions.md R190). -/
inductive Fault where
deriving DecidableEq, Repr

/-- Why a step answers that the chosen event has no meaning. -/
inductive Refusal where
  /-- an instruction of the table without a meaning; raised by no arm of this model. Safe. -/
  | notModelled (mnemonic : String)
  /-- raised by every meaning when an operand is outside its range, or the source's gateway is of another kind, or the
  action does not exist under the notification model: no such action exists in the configuration
  (spec/30_encoding.md R92, R97; spec/43_notification.md R171). Safe (log 7). -/
  | noSuchAction
  /-- raised by a send whose message is out of range or whose requester is not in `Req`: "at message level such a message
  cannot be formed" (spec/30_encoding.md R97, spec/92_eei_decisions.md D17). Safe (log 7). -/
  | noSuchMessage
  /-- raised by a bus read of what the register map does not define (spec/20_memory.md R62, spec/92_eei_decisions.md D17,
  spec/60_exceptions.md R190), and by a bus access of the wrong width or alignment (R64). Safe (log 13). -/
  | noSuchAccess
  /-- raised by an event whose bytes are no action word (log 8). Safe. -/
  | noSuchWord (why : DecodeError)
deriving DecidableEq, Repr

/-- The default reset state of spec/70_reset_and_hazards.md R231 for a configuration, with the levels `lines` that the
devices drive: "`line[s]` is an input and is whatever the device drives". A level stands only where the gateway is
level-sensitive (log 18). -/
def defaultInit (c : Cfg) (lines : List Bool) : InitState where
  ip := (sourceIds c).map fun _ => false
  prio := (sourceIds c).map (prioOne c)
  ie := (List.range (numTargets c)).map fun t => (sourceIds c).map fun s => decide (ieKind c t s = .hard1)
  thr := (List.range (numTargets c)).map fun _ => 0
  busy := (sourceIds c).map fun _ => false
  cnt := (sourceIds c).map fun _ => 0
  line := (sourceIds c).map fun s => isLevel c s && at1 false lines s
  reqQ := (sourceIds c).map fun _ => 0
  inQ := (List.range c.reqs).map fun _ => []
  outQ := (List.range c.reqs).map fun _ => []
  notif := (List.range (numTargets c)).map fun _ => false
  seen0 := (List.range (numTargets c)).map fun _ => true
  seen1 := (List.range (numTargets c)).map fun _ => false

/-- The machine of configuration `c` in the state `x` of the PLIC, with nothing received (log 12) and no event chosen
(log 5). -/
def State.ofInit (c : Cfg) (x : InitState) : State where
  cfg := c
  ip := x.ip
  prio := x.prio
  ie := x.ie
  thr := x.thr
  busy := x.busy
  cnt := x.cnt
  line := x.line
  reqQ := x.reqQ
  inQ := x.inQ
  outQ := x.outQ
  rcvd := (List.range c.reqs).map fun _ => []
  notif := x.notif
  seen0 := x.seen0
  seen1 := x.seen1
  agenda := []
  tick := 0

/-- The machine after reset (spec/70_reset_and_hazards.md R230): `Cfg.Init`, and where the platform says nothing the default
of R231, with the levels `lines` that the devices drive. -/
def State.resetOf (c : Cfg) (lines : List Bool) : State := State.ofInit c (c.init.getD (defaultInit c lines))

/-- The machine right after reset: R231 for the configuration of log 2 with every level deasserted (log 4). -/
def State.reset : State := State.resetOf Config.vectorsA []

end Sys2Proof.Machine
end

