-- ==== Sys2Proof/Machine/Ops.lean ====
section
/-! DEFINITION. The named operations over the state: one reader and one writer for each piece of state, and the queue
operations of spec/00_scope.md section 6. The PLIC has no memory and takes no exception (spec/20_memory.md R62,
spec/60_exceptions.md R190), so there is no memory access and no exception entry among them. -/

namespace Sys2Proof.Machine

/-! Readers. An index outside the configuration reads as 0, false or empty. -/

/-- `IP[s]` -/
def State.ipOf (st : State) (s : Nat) : Bool := at1 false st.ip s

/-- `prio[s]` -/
def State.prioOf (st : State) (s : Nat) : Nat := at1 0 st.prio s

/-- The row `IE[t]`. -/
def State.ieRow (st : State) (t : Nat) : List Bool := st.ie.getD t []

/-- `IE[t][s]` -/
def State.ieOf (st : State) (t s : Nat) : Bool := at1 false (st.ieRow t) s

/-- `thr[t]` -/
def State.thrOf (st : State) (t : Nat) : Nat := st.thr.getD t 0

/-- `busy[s]` -/
def State.busyOf (st : State) (s : Nat) : Bool := at1 false st.busy s

/-- `cnt[s]` -/
def State.cntOf (st : State) (s : Nat) : Nat := at1 0 st.cnt s

/-- `line[s]` -/
def State.lineOf (st : State) (s : Nat) : Bool := at1 false st.line s

/-- `reqQ[s]` -/
def State.reqQOf (st : State) (s : Nat) : Nat := at1 0 st.reqQ s

/-- `inQ[r]` -/
def State.inQOf (st : State) (r : Nat) : List Msg := st.inQ.getD r []

/-- `outQ[r]` -/
def State.outQOf (st : State) (r : Nat) : List Resp := st.outQ.getD r []

/-- What requester `r` has received. -/
def State.rcvdOf (st : State) (r : Nat) : List Resp := st.rcvd.getD r []

/-- `notif[t]` -/
def State.notifOf (st : State) (t : Nat) : Bool := st.notif.getD t false

/-- `seen0[t]` -/
def State.seen0Of (st : State) (t : Nat) : Bool := st.seen0.getD t false

/-- `seen1[t]` -/
def State.seen1Of (st : State) (t : Nat) : Bool := st.seen1.getD t false

/-! Writers. An index outside the configuration writes nothing. -/

/-- `IP[s] <- v` -/
def State.setIp (st : State) (s : Nat) (v : Bool) : State := { st with ip := set1 st.ip s v }

/-- `prio[s] <- v` -/
def State.setPrio (st : State) (s v : Nat) : State := { st with prio := set1 st.prio s v }

/-- `IE[t] <- row` -/
def State.setIeRow (st : State) (t : Nat) (row : List Bool) : State := { st with ie := st.ie.set t row }

/-- `thr[t] <- v` -/
def State.setThr (st : State) (t v : Nat) : State := { st with thr := st.thr.set t v }

/-- `busy[s] <- v` -/
def State.setBusy (st : State) (s : Nat) (v : Bool) : State := { st with busy := set1 st.busy s v }

/-- `cnt[s] <- v` -/
def State.setCnt (st : State) (s v : Nat) : State := { st with cnt := set1 st.cnt s v }

/-- `line[s] <- v` -/
def State.setLine (st : State) (s : Nat) (v : Bool) : State := { st with line := set1 st.line s v }

/-- `reqQ[s] <- v` -/
def State.setReqQ (st : State) (s v : Nat) : State := { st with reqQ := set1 st.reqQ s v }

/-- `inQ[r] <- q` -/
def State.setInQ (st : State) (r : Nat) (q : List Msg) : State := { st with inQ := st.inQ.set r q }

/-- `outQ[r] <- q` -/
def State.setOutQ (st : State) (r : Nat) (q : List Resp) : State := { st with outQ := st.outQ.set r q }

/-- What requester `r` has received becomes `q`. -/
def State.setRcvd (st : State) (r : Nat) (q : List Resp) : State := { st with rcvd := st.rcvd.set r q }

/-- `notif[t] <- v` -/
def State.setNotif (st : State) (t : Nat) (v : Bool) : State := { st with notif := st.notif.set t v }

/-! Queues (spec/00_scope.md section 6). -/

/-- `m = head(inQ[r])` -/
def State.headIs (st : State) (r : Nat) (m : Msg) : Bool := decide ((st.inQOf r).head? = some m)

/-- `enqueue(inQ[r], m)` -/
def State.enqueueIn (st : State) (r : Nat) (m : Msg) : State := st.setInQ r (st.inQOf r ++ [m])

/-- `dequeue(inQ[r])` -/
def State.dequeueIn (st : State) (r : Nat) : State := st.setInQ r (st.inQOf r).tail

/-- `enqueue(outQ[r], m)` -/
def State.enqueueOut (st : State) (r : Nat) (m : Resp) : State := st.setOutQ r (st.outQOf r ++ [m])

/-- `m := head(outQ[r]); dequeue(outQ[r])`, and requester `r` receives `m` (spec/42_claim_completion.md R159). -/
def State.deliver (st : State) (r : Nat) : State :=
  (st.setRcvd r (st.rcvdOf r ++ (st.outQOf r).head?.toList)).setOutQ r (st.outQOf r).tail

end Sys2Proof.Machine
end

