-- ==== Sys2Proof/Machine/Bus.lean ====
section
/-! DEFINITION. Bus accesses: how a requester's read or write becomes a message (spec/20_memory.md R62, R64;
spec/30_encoding.md R100 to R102). -/

namespace Sys2Proof.Machine

/-- What a bus access stands for. -/
inductive AccessMeaning where
  /-- the requester sends this message -/
  | message (m : Msg)
  /-- nothing happens -/
  | ignored
  /-- the access has no meaning -/
  | refused
deriving DecidableEq, Repr

/-- The message of a read that reaches a register. -/
def readMsg : ReadPort → Msg
  | .prio s => .rprio s
  | .ie t k => .rie t k
  | .thr t => .rthr t
  | .ip k => .rip k
  | .claim t => .claim t

/-- The message of a write of `w` that reaches a register; the completing target is the register written, the gateway is
the value written (spec/30_encoding.md R93). -/
def writeMsg (w : Nat) : WritePort → Msg
  | .prio s => .wprio s w
  | .ie t k => .wie t k w
  | .thr t => .wthr t w
  | .complete t => .complete t w

/-- The target whose interrupt handler needs the register that the message names: "`CLAIM t`, `COMPLETE t`, `WTHR t`"
(spec/30_encoding.md R100), and the threshold's read at the same register; `none` for a priority, enable or pending
register. -/
def Msg.handlerTarget : Msg → Option Nat
  | .wprio _ _ => none
  | .wie _ _ _ => none
  | .wthr t _ => some t
  | .rprio _ => none
  | .rie _ _ => none
  | .rthr t => some t
  | .rip _ => none
  | .claim t => some t
  | .complete t _ => some t

/-- A register of the reference instance, before the configuration is consulted. PRESUMED (log 14). -/
inductive RefRegister where
  | prio (s : Nat)
  | pending (k : Nat)
  | enable (t k : Nat)
  | threshold (t : Nat)
  | claimComplete (t : Nat)
deriving DecidableEq, Repr

/-- The register at an offset of the reference instance (spec/30_encoding.md R102). -/
def refRegister (off : Nat) : Option RefRegister :=
  if off < 0x1000 then some (.prio (off / 4))
  else if off < 0x1080 then some (.pending (off / 4 % 32))
  else if off < 0x2000 then none
  else if off < 0x1F2000 then some (.enable ((off - 0x2000) / 128) (off / 4 % 32))
  else if off < 0x200000 then none
  else if off % 4096 = 0 then some (.threshold ((off - 0x200000) / 4096))
  else if off % 4096 = 4 then some (.claimComplete ((off - 0x200000) / 4096))
  else none

/-- What a read reaches (spec/30_encoding.md R101, the read column). -/
def refRead : RefRegister → ReadPort
  | .prio s => .prio s
  | .pending k => .ip k
  | .enable t k => .ie t k
  | .threshold t => .thr t
  | .claimComplete t => .claim t

/-- What a write reaches (spec/30_encoding.md R101, the write column): the pending bits are not writable
(spec/41_registers.md R138). -/
def refWrite : RefRegister → Option WritePort
  | .prio s => some (.prio s)
  | .pending _ => none
  | .enable t k => some (.ie t k)
  | .threshold t => some (.thr t)
  | .claimComplete t => some (.complete t)

/-- An access of `n` bytes at `addr` has the width of the map's registers and is naturally aligned (spec/20_memory.md R64);
a map without registers has no width to miss. -/
def accessFits (m : RegMap) (addr n : Nat) : Bool :=
  match m with
  | .unmapped => true
  | .table xw _ _ _ => decide (n = xw ∧ addr % xw = 0)
  | .reference _ => decide (n = 4 ∧ addr % 4 = 0)

/-- `addr` is inside the window of the reference instance (spec/30_encoding.md R101, R102). -/
def inWindow (base addr : Nat) : Bool := decide (base ≤ addr ∧ addr - base < 0x4000000)

/-- The register a read at `addr` reaches, if the map has one there. -/
def readPort? (m : RegMap) (addr : Nat) : Option ReadPort :=
  match m with
  | .unmapped => none
  | .table _ _ reads _ => (reads.find? fun e => decide (e.1 = addr)).map Prod.snd
  | .reference base => if inWindow base addr then (refRegister (addr - base)).map refRead else none

/-- The register a write at `addr` reaches, if the map has one there. -/
def writePort? (m : RegMap) (addr : Nat) : Option WritePort :=
  match m with
  | .unmapped => none
  | .table _ _ _ writes => (writes.find? fun e => decide (e.1 = addr)).map Prod.snd
  | .reference base => if inWindow base addr then (refRegister (addr - base)).bind refWrite else none

/-- A read of `n` bytes at `addr` (`RegMap(addr, read, n)`). A read of what the map does not define, or of a register
outside the configuration, is refused (spec/92_eei_decisions.md D17; spec/30_encoding.md R102; log 13). -/
def busReadMeaning (c : Cfg) (addr n : Nat) : AccessMeaning :=
  if accessFits c.regMap addr n then
    match readPort? c.regMap addr with
    | some p => if msgInRange c (readMsg p) then .message (readMsg p) else .refused
    | none => .refused
  else .refused

/-- A write of `w` in `n` bytes at `addr` (`RegMap(addr, write, n)`). A write to what the map does not define, inside its
window or outside, to the pending bits, to a register outside the configuration, or of a completion value outside `1 … N`
is ignored (spec/60_exceptions.md R190, spec/92_eei_decisions.md D17); the wrong width or alignment is refused (D13,
spec/93_implementation_defined.md U5; log 13). -/
def busWriteMeaning (c : Cfg) (addr n w : Nat) : AccessMeaning :=
  if accessFits c.regMap addr n then
    match writePort? c.regMap addr with
    | some p => if msgInRange c (writeMsg w p) then .message (writeMsg w p) else .ignored
    | none => .ignored
  else .refused

/-- The bytes a bus read of `n` bytes returns when this response is delivered, lowest address first
(spec/20_memory.md R64; spec/95_test_vectors.md MP22). DESIGN CHOICE (log 40): where a claim's ID does not fit the `n` bytes
of a listed map's registers, which R92 does not forbid, the data is the ID's low `n` bytes. -/
def Resp.dataBytes (n : Nat) : Resp → List Byte
  | .cresp id => leBytes n id
  | .rresp v => leBytes n v

end Sys2Proof.Machine
end

