-- ==== Sys2Proof/Machine/Flags.lean ====
section
/-! DEFINITION. The derived functions of the core state (spec/10_state.md R37 to R40) and what every atomic action does
to the history bits and, under `wire`, to the notification (R35, R36). -/

namespace Sys2Proof.Machine

/-- `active(t, s)` (R37): `IP[s] = 1 and IE[t][s] = 1`. The threshold is no part of it (log 21). -/
def State.active (st : State) (t s : Nat) : Bool := st.ipOf s && st.ieOf t s

/-- `elig(t, s)` (R38): `active(t, s) and prio[s] != 0` (log 22). -/
def State.elig (st : State) (t s : Nat) : Bool := st.active t s && decide (st.prioOf s ≠ 0)

/-- `better(s1, s2)` (R39): the greater priority, and among equals the smaller ID. -/
def State.better (st : State) (s1 s2 : Nat) : Bool :=
  decide (st.prioOf s1 > st.prioOf s2 ∨ (st.prioOf s1 = st.prioOf s2 ∧ s1 < s2))

/-- One source weighed against the best found so far, 0 standing for none. -/
def State.bestStep (st : State) (t best s : Nat) : Nat :=
  if st.elig t s then (if best = 0 ∨ st.better s best = true then s else best) else best

/-- `best(t)` (R39): the eligible source better than every other, or 0. -/
def State.best (st : State) (t : Nat) : Nat := (sourceIds st.cfg).foldl (st.bestStep t) 0

/-- `EIP(t)` (R40): some source is active for `t` with a priority strictly above the threshold. -/
def State.eip (st : State) (t : Nat) : Bool :=
  (sourceIds st.cfg).any fun s => st.active t s && decide (st.prioOf s > st.thrOf t)

/-- What ends every atomic action of any agent (R36): for every target, `seen1[t] <- 1` if `EIP(t) = 1`, else
`seen0[t] <- 1`; and under `wire` `notif[t]` equals `EIP(t)` at every moment (R35, spec/43_notification.md R171). -/
def State.settle (st : State) : State :=
  { st with
    seen0 := st.seen0.mapIdx fun t b => b || !st.eip t
    seen1 := st.seen1.mapIdx fun t b => b || st.eip t
    notif := if st.cfg.notifyModel = .wire then st.notif.mapIdx fun t _ => st.eip t else st.notif }

end Sys2Proof.Machine
end

