-- ==== Sys2Proof/Machine/Actions.lean ====
section
/-! DEFINITION. How an action answers, once for all of them: a rule "Guard: G. Effect: E." of the spec is an action that
may fire where `G` holds and then changes the state by `E` in one atomic step (spec/00_scope.md section 6). -/

namespace Sys2Proof.Machine

/-- An action with operand ranges `exists?`, guard `guard` and state after the effect `eff`. Outside the ranges there is
no such action (log 7). Where the guard is false the action does not fire: nothing changes (log 6). -/
def fire (exists? guard : Bool) (eff st : State) : Host.Outcome State Fault Refusal :=
  if exists? then (if guard then .next eff.settle else .next st) else .refused .noSuchAction

/-- A message action (spec/41_registers.md, the lines before section 1): its guard is that `m` is `head(inQ[r])`, and its
effect begins with `dequeue(inQ[r])`; `eff` is the rest of it. -/
def onMessage (r : Nat) (m : Msg) (eff : State → State) (st : State) : Host.Outcome State Fault Refusal :=
  fire (isReq st.cfg r && msgInRange st.cfg m) (st.headIs r m) (eff (st.dequeueIn r)) st

end Sys2Proof.Machine
end

