-- ==== Sys2Proof/Machine/Claims.lean ====
section
/-! DEFINITION. Accepting requests, claims, completions, responses (spec/42_claim_completion.md): ACCEPT, CLAIM, COMPLETE,
RESP. -/

namespace Sys2Proof.Machine

/-- The guard of `ACCEPT s` (R150): `reqQ[s] > 0 and IP[s] = 0`. -/
def canAccept (st : State) (s : Nat) : Bool := decide (st.reqQOf s > 0) && !st.ipOf s

/-- The effect of `ACCEPT s` (R150): the request leaves the queue, the IP bit is set, a counting gateway's counter is
decremented. -/
def accepted (s : Nat) (st : State) : State :=
  let x := (st.setReqQ s (st.reqQOf s - 1)).setIp s true
  if isEdgeCount st.cfg s then x.setCnt s (st.cntOf s - 1) else x

/-- The effect of `CLAIM t` after the dequeue (R152): the IP bit of the best eligible source is cleared, none where that
is 0, and the response carries its ID. -/
def claimed (r t : Nat) (st : State) : State :=
  let id := st.best t
  (if id = 0 then st else st.setIp id false).enqueueOut r (.cresp id)

/-- The effect of `COMPLETE t, s` after the dequeue (R154): `busy[s] <- 0` if `IE[t][s] = 1`, else nothing. -/
def completed (t s : Nat) (st : State) : State := if st.ieOf t s then st.setBusy s false else st

/-- The guard of `RESP r` (R159): `outQ[r]` is not empty. -/
def canRespond (st : State) (r : Nat) : Bool := !(st.outQOf r).isEmpty

/-- `ACCEPT s` (R150). -/
def execAccept (s : Nat) (st : State) : Host.Outcome State Fault Refusal :=
  fire (isSource st.cfg s) (canAccept st s) (accepted s st) st

/-- `CLAIM t` (R152): served for the target named, whoever the requester is (corner case e); it has no other guard
(R153). -/
def execClaim (r t : Nat) (st : State) : Host.Outcome State Fault Refusal :=
  onMessage r (.claim t) (claimed r t) st

/-- `COMPLETE t, s` (R154): a completion by a target for which the source is not enabled is dropped. -/
def execComplete (r t s : Nat) (st : State) : Host.Outcome State Fault Refusal :=
  onMessage r (.complete t s) (completed t s) st

/-- `RESP r` (R159). -/
def execResp (r : Nat) (st : State) : Host.Outcome State Fault Refusal :=
  fire (isReq st.cfg r) (canRespond st r) (st.deliver r) st

end Sys2Proof.Machine
end

