-- ==== Sys2Proof/Machine/Gateways.lean ====
section
/-! DEFINITION. Interrupt sources and gateways (spec/40_gateways.md): LINE, FWD.L, EDGE.I, EDGE.C, FWD.C, MSI. -/

namespace Sys2Proof.Machine

/-- A request goes to the core (spec/40_gateways.md R110, R112): `busy[s] <- 1; reqQ[s] <- reqQ[s] + 1`. -/
def forward (s : Nat) (st : State) : State := (st.setBusy s true).setReqQ s (st.reqQOf s + 1)

/-- What an edge does at an ignoring gateway (R113): it forwards a request, or is lost while a completion is awaited. -/
def edgeIgnored (s : Nat) (st : State) : State := if st.busyOf s then st else forward s st

/-- What an edge does at a counting gateway (R114): `cnt[s] <- min(cnt[s] + 1, cntMax[s])`. -/
def edgeCounted (s : Nat) (st : State) : State := st.setCnt s (saturate st.cfg s (st.cntOf s + 1))

/-- The guard of `FWD.L s` (R112): `line[s] = 1 and busy[s] = 0`. -/
def canForwardLevel (st : State) (s : Nat) : Bool := st.lineOf s && !st.busyOf s

/-- The guard of `FWD.C s` (R115): `cnt[s] > reqQ[s] and busy[s] = 0`. -/
def canForwardCount (st : State) (s : Nat) : Bool := decide (st.cntOf s > st.reqQOf s) && !st.busyOf s

/-- `LINE s, b` (R111). -/
def execLine (s : Nat) (b : Bool) (st : State) : Host.Outcome State Fault Refusal :=
  fire (isLevel st.cfg s) true (st.setLine s b) st

/-- `FWD.L s` (R112). -/
def execFwdL (s : Nat) (st : State) : Host.Outcome State Fault Refusal :=
  fire (isLevel st.cfg s) (canForwardLevel st s) (forward s st) st

/-- `EDGE.I s` (R113). -/
def execEdgeI (s : Nat) (st : State) : Host.Outcome State Fault Refusal :=
  fire (isEdgeIgnore st.cfg s) true (edgeIgnored s st) st

/-- `EDGE.C s` (R114). -/
def execEdgeC (s : Nat) (st : State) : Host.Outcome State Fault Refusal :=
  fire (isEdgeCount st.cfg s) true (edgeCounted s st) st

/-- `FWD.C s` (R115). The counter is not changed here; ACCEPT decrements it. -/
def execFwdC (s : Nat) (st : State) : Host.Outcome State Fault Refusal :=
  fire (isEdgeCount st.cfg s) (canForwardCount st s) (forward s st) st

/-- `MSI s` (R116): "similar to an edge-triggered interrupt", read as the edge action of the gateway's kind. -/
def execMsi (s : Nat) (st : State) : Host.Outcome State Fault Refusal :=
  fire (isEdgeIgnore st.cfg s || isEdgeCount st.cfg s) true
    (if isEdgeIgnore st.cfg s then edgeIgnored s st else edgeCounted s st) st

end Sys2Proof.Machine
end

