-- ==== Sys2Proof/Machine/Notify.lean ====
section
/-! DEFINITION. Interrupt notifications (spec/43_notification.md): NOTIFY, and where a notification appears. -/

namespace Sys2Proof.Machine

/-- The guard of `NOTIFY t, v` (R171) by the notification model. -/
def canNotify (st : State) (t : Nat) (v : Bool) : Bool :=
  match st.cfg.notifyModel with
  | .wire => false
  | .sample => decide (v = st.eip t)
  | .anyPast => if v then st.seen1Of t else st.seen0Of t

/-- `NOTIFY t, v` (R171); "under `wire` the action does not exist". -/
def execNotify (t : Nat) (v : Bool) (st : State) : Host.Outcome State Fault Refusal :=
  fire (isTarget st.cfg t && decide (st.cfg.notifyModel ≠ .wire)) (canNotify st t v) (st.setNotif t v) st

/-- The external-interrupt-pending bit of mode `x` on hart `h` (R175): `meip`, `seip` or `ueip` is the notification of the
target that is that hart context; where no target is, nothing drives the bit and it reads 0. What the hart makes of it is
out of scope (spec/00_scope.md section 4). -/
def State.externalPending (st : State) (h : Nat) (x : Mode) : Bool :=
  (List.range (numTargets st.cfg)).any fun t =>
    decide ((st.cfg.targets[t]?).map TargetCfg.kind = some (.hartContext h x)) && st.notifOf t

end Sys2Proof.Machine
end

