-- ==== Sys2Proof/Machine/Registers.lean ====
section
/-! DEFINITION. Priority, enable, threshold and pending registers (spec/41_registers.md): WPRIO, WIE, WTHR, RPRIO, RIE,
RTHR, RIP. A write of any value is accepted and what is stored is legal (R134); a read has no side effect. -/

namespace Sys2Proof.Machine

/-- `WPRIO s, w` (R131): `prio[s] <- legalPrio(s, w)`. -/
def execWprio (r s w : Nat) (st : State) : Host.Outcome State Fault Refusal :=
  onMessage r (.wprio s w) (fun x => x.setPrio s (legalPrio x.cfg s w)) st

/-- `WIE t, k, w` (R132): every bit of register `k` in one atomic step. -/
def execWie (r t k w : Nat) (st : State) : Host.Outcome State Fault Refusal :=
  onMessage r (.wie t k w) (fun x => x.setIeRow t (writeIeRow x.cfg t k w (x.ieRow t))) st

/-- `WTHR t, w` (R133): `thr[t] <- legalThr(t, w)`. -/
def execWthr (r t w : Nat) (st : State) : Host.Outcome State Fault Refusal :=
  onMessage r (.wthr t w) (fun x => x.setThr t (legalThr x.cfg t w)) st

/-- `RPRIO s` (R135): `enqueue(outQ[r], RRESP zext(prio[s]))`. -/
def execRprio (r s : Nat) (st : State) : Host.Outcome State Fault Refusal :=
  onMessage r (.rprio s) (fun x => x.enqueueOut r (.rresp (x.prioOf s))) st

/-- `RIE t, k` (R136): the packed enable bits. -/
def execRie (r t k : Nat) (st : State) : Host.Outcome State Fault Refusal :=
  onMessage r (.rie t k) (fun x => x.enqueueOut r (.rresp (packReg x.cfg (x.ieOf t) k))) st

/-- `RTHR t` (R137): `enqueue(outQ[r], RRESP zext(thr[t]))`. -/
def execRthr (r t : Nat) (st : State) : Host.Outcome State Fault Refusal :=
  onMessage r (.rthr t) (fun x => x.enqueueOut r (.rresp (x.thrOf t))) st

/-- `RIP k` (R138): the packed pending bits; reading clears nothing. -/
def execRip (r k : Nat) (st : State) : Host.Outcome State Fault Refusal :=
  onMessage r (.rip k) (fun x => x.enqueueOut r (.rresp (packReg x.cfg x.ipOf k))) st

end Sys2Proof.Machine
end

