-- ==== Sys2Proof/Machine/Dispatch.lean ====
section
/-! DEFINITION. One arm for each action of spec/30_encoding.md R91. -/

namespace Sys2Proof.Machine

def exec (i : Instr) (s : State) : Host.Outcome State Fault Refusal :=
  match i with
  | .line src b => Sys2Proof.Machine.execLine src b s
  | .fwdL src => Sys2Proof.Machine.execFwdL src s
  | .edgeI src => Sys2Proof.Machine.execEdgeI src s
  | .edgeC src => Sys2Proof.Machine.execEdgeC src s
  | .fwdC src => Sys2Proof.Machine.execFwdC src s
  | .msi src => Sys2Proof.Machine.execMsi src s
  | .wprio r src w => Sys2Proof.Machine.execWprio r src w s
  | .wie r t k w => Sys2Proof.Machine.execWie r t k w s
  | .wthr r t w => Sys2Proof.Machine.execWthr r t w s
  | .rprio r src => Sys2Proof.Machine.execRprio r src s
  | .rie r t k => Sys2Proof.Machine.execRie r t k s
  | .rthr r t => Sys2Proof.Machine.execRthr r t s
  | .rip r k => Sys2Proof.Machine.execRip r k s
  | .accept src => Sys2Proof.Machine.execAccept src s
  | .claim r t => Sys2Proof.Machine.execClaim r t s
  | .complete r t src => Sys2Proof.Machine.execComplete r t src s
  | .resp r => Sys2Proof.Machine.execResp r s
  | .notify t v => Sys2Proof.Machine.execNotify t v s

end Sys2Proof.Machine
end

