-- ==== Sys2Proof/WellFormed.lean ====
section
/-! DEFINITION. Which configurations are well-formed (spec/00_scope.md R7), with the state after reset that one may give
(spec/10_state.md R46), and which actions exist in a configuration (spec/30_encoding.md R91, R92: "A message outside its
range is not a message of this machine"). -/

namespace Sys2Proof

open Sys2Proof.Machine

/-- `prioOne[s] AND prioVar[s] = 0` and both are less than `2^PW` (spec/00_scope.md R7). -/
def SourceCfg.wf (pw : Nat) (x : SourceCfg) : Bool :=
  decide (x.prioOne &&& x.prioVar = 0 ∧ x.prioOne < 2 ^ pw ∧ x.prioVar < 2 ^ pw)

/-- `thrVar[t] < 2^PW` (spec/00_scope.md R7), and there is one `ieKind` for each of the `n` sources. -/
def TargetCfg.wf (pw n : Nat) (x : TargetCfg) : Bool :=
  decide (x.thrVar < 2 ^ pw ∧ x.ieKinds.length = n)

/-- The registers that may share an address: those of one register, and the claim and completion registers of one
target (spec/30_encoding.md R100). -/
def sameRegister : ReadPort → WritePort → Bool
  | .prio s, .prio s' => decide (s = s')
  | .ie t k, .ie t' k' => decide (t = t' ∧ k = k')
  | .thr t, .thr t' => decide (t = t')
  | .claim t, .complete t' => decide (t = t')
  | _, _ => false

/-- The registers a lower-privilege handler needs for a target are "separable from those of any other target and from the
priority, pending and enable registers" (spec/30_encoding.md R100): two listed registers in one region of `granule` bytes
belong to the handler of the same target, or to none. -/
def separable (granule : Nat) (reads : List (Nat × ReadPort)) (writes : List (Nat × WritePort)) : Bool :=
  let listed := reads.map (fun e => (e.1 / granule, (readMsg e.2).handlerTarget))
    ++ writes.map (fun e => (e.1 / granule, (writeMsg 0 e.2).handlerTarget))
  listed.all fun e => listed.all fun e' => decide (e.1 = e'.1 → e.2 = e'.2)

/-- What spec/30_encoding.md R100 asks of a map, with the natural alignment of spec/20_memory.md R64 and registers wide
enough for `max(PW, G)` bits (R92), no register in two regions of protection; and what R101 states of the reference
instance: 32 bits to a register, `N <= 1023`, `T <= 15872` (log 15). Nothing asks that the ID `N` fit a register of a
listed map: R92 is silent, and the model does not ask it either. DESIGN CHOICE (log 40). -/
def RegMap.wf (pw g n t : Nat) : RegMap → Bool
  | .unmapped => true
  | .table xw granule reads writes =>
    decide (1 ≤ xw ∧ pw ≤ 8 * xw ∧ g ≤ 8 * xw ∧ 1 ≤ granule ∧ granule % xw = 0)
      && decide (reads.map Prod.fst).Nodup && decide (writes.map Prod.fst).Nodup
      && reads.all (fun e => decide (e.1 % xw = 0)) && writes.all (fun e => decide (e.1 % xw = 0))
      && reads.all (fun e => writes.all fun e' => decide (e.1 ≠ e'.1) || sameRegister e.2 e'.2)
      && separable granule reads writes
  | .reference base => decide (base % 4096 = 0 ∧ g = 32 ∧ pw ≤ 32 ∧ n ≤ 1023 ∧ t ≤ 15872)

/-- A state is well-formed for its configuration (spec/10_state.md R46), as a check: each list has one element for each
index; priorities, thresholds and enables are legal; counters are in their bounds; the history bits hold `EIP`. With it, what
`State.Inv` adds: only messages and responses in range wait (spec/30_encoding.md R92), a counter or level stands only where
the gateway has one (log 18), and `wire` ties `notif` to `EIP` (R35). -/
def Machine.State.legal (st : State) : Bool :=
  decide (st.ip.length = numSources st.cfg ∧ st.prio.length = numSources st.cfg ∧ st.ie.length = numTargets st.cfg
    ∧ st.thr.length = numTargets st.cfg ∧ st.busy.length = numSources st.cfg ∧ st.cnt.length = numSources st.cfg
    ∧ st.line.length = numSources st.cfg ∧ st.reqQ.length = numSources st.cfg ∧ st.inQ.length = st.cfg.reqs
    ∧ st.outQ.length = st.cfg.reqs ∧ st.rcvd.length = st.cfg.reqs ∧ st.notif.length = numTargets st.cfg
    ∧ st.seen0.length = numTargets st.cfg ∧ st.seen1.length = numTargets st.cfg)
  && decide (∀ s, s ≤ numSources st.cfg → 1 ≤ s → st.prioOf s = legalPrio st.cfg s (st.prioOf s))
  && decide (∀ s, s ≤ numSources st.cfg → ∀ m, m ∈ cntMax st.cfg s → st.cntOf s ≤ m)
  && decide (∀ s, s ≤ numSources st.cfg → isEdgeCount st.cfg s = true → st.reqQOf s ≤ st.cntOf s)
  && decide (∀ s, s ≤ numSources st.cfg → isEdgeCount st.cfg s = false → st.cntOf s = 0)
  && decide (∀ s, s ≤ numSources st.cfg → isLevel st.cfg s = false → st.lineOf s = false)
  && decide (∀ t, t < numTargets st.cfg → (st.ieRow t).length = numSources st.cfg)
  && decide (∀ t, t < numTargets st.cfg → ∀ s, s ≤ numSources st.cfg → 1 ≤ s →
    (ieKind st.cfg t s = .hard0 → st.ieOf t s = false) ∧ (ieKind st.cfg t s = .hard1 → st.ieOf t s = true))
  && decide (∀ t, t < numTargets st.cfg → st.thrOf t = legalThr st.cfg t (st.thrOf t))
  && decide (∀ t, t < numTargets st.cfg → st.eip t = true → st.seen1Of t = true)
  && decide (∀ t, t < numTargets st.cfg → st.eip t = false → st.seen0Of t = true)
  && decide (st.cfg.notifyModel = .wire → ∀ t, t < numTargets st.cfg → st.notifOf t = st.eip t)
  && decide (∀ r, r < st.cfg.reqs → (st.inQOf r).all (msgInRange st.cfg) = true)
  && decide (∀ r, r < st.cfg.reqs → (st.outQOf r).all (respInRange st.cfg) = true)

/-- `Init`, where the platform gives it, is "a state of 10_state.md satisfying rule R46" (spec/00_scope.md R7). -/
def InitState.wf (c : Cfg) (x : InitState) : Bool := (State.ofInit c x).legal

/-- A configuration is well-formed (spec/00_scope.md R7). -/
def Cfg.wf (c : Cfg) : Bool :=
  decide (1 ≤ c.pw ∧ 1 ≤ c.g) && c.sources.all (SourceCfg.wf c.pw)
    && c.targets.all (TargetCfg.wf c.pw c.sources.length)
    && RegMap.wf c.pw c.g (numSources c) (numTargets c) c.regMap && c.init.all (InitState.wf c)

/-- The action exists in the configuration: each operand is in the range of its row (spec/30_encoding.md R91, R92;
spec/40_gateways.md for the kinds of gateway; spec/43_notification.md R171: under `wire` NOTIFY does not exist). -/
def Instr.wf (c : Cfg) : Instr → Bool
  | .line s _ => isLevel c s
  | .fwdL s => isLevel c s
  | .edgeI s => isEdgeIgnore c s
  | .edgeC s => isEdgeCount c s
  | .fwdC s => isEdgeCount c s
  | .msi s => isEdgeIgnore c s || isEdgeCount c s
  | .wprio r s w => isReq c r && msgInRange c (.wprio s w)
  | .wie r t k w => isReq c r && msgInRange c (.wie t k w)
  | .wthr r t w => isReq c r && msgInRange c (.wthr t w)
  | .rprio r s => isReq c r && msgInRange c (.rprio s)
  | .rie r t k => isReq c r && msgInRange c (.rie t k)
  | .rthr r t => isReq c r && msgInRange c (.rthr t)
  | .rip r k => isReq c r && msgInRange c (.rip k)
  | .accept s => isSource c s
  | .claim r t => isReq c r && msgInRange c (.claim t)
  | .complete r t s => isReq c r && msgInRange c (.complete t s)
  | .resp r => isReq c r
  | .notify t _ => isTarget c t && decide (c.notifyModel ≠ .wire)

end Sys2Proof
end

