-- ==== Sys2Proof/Machine/Agents.lean ====
section
/-! DEFINITION. What one event does, whichever agent of spec/10_state.md R22 takes it, and which events the machine can
take in a state. -/

namespace Sys2Proof.Machine

/-- Requester `r` sends `m` (spec/00_scope.md section 6): the message joins the end of `inQ[r]`. -/
def sendMsg (r : Nat) (m : Msg) (st : State) : Host.Outcome State Fault Refusal :=
  if isReq st.cfg r && msgInRange st.cfg m then .next (st.enqueueIn r m) else .refused .noSuchMessage

/-- Requester `r` makes a bus access with the given meaning. -/
def accessBus (r : Nat) (a : AccessMeaning) (st : State) : Host.Outcome State Fault Refusal :=
  match a with
  | .message m => sendMsg r m st
  | .ignored => .next st
  | .refused => .refused .noSuchAccess

/-- The action a word spells is run; a word that spells none is refused. -/
def runWord (word : List Byte) (st : State) : Host.Outcome State Fault Refusal :=
  match decodeWord word with
  | .ok i => exec i st
  | .error e => .refused (.noSuchWord e)

/-- What an event does. -/
def runEvent (e : Event) (st : State) : Host.Outcome State Fault Refusal :=
  match e with
  | .action word => runWord word st
  | .send r m => sendMsg r m st
  | .busRead r addr n => accessBus r (busReadMeaning st.cfg addr n) st
  | .busWrite r addr bytes => accessBus r (busWriteMeaning st.cfg addr bytes.length (leValue bytes)) st

/-- The event is one that the configured machine can take: an action that exists, a message that can be formed, an access
with a meaning. -/
def admissible (c : Cfg) (e : Event) : Bool :=
  match e with
  | .action word =>
    match decodeWord word with
    | .ok i => i.wf c
    | .error _ => false
  | .send r m => isReq c r && msgInRange c m
  | .busRead r addr n => isReq c r && decide (busReadMeaning c addr n ≠ .refused)
  | .busWrite r addr bytes => isReq c r && decide (busWriteMeaning c addr bytes.length (leValue bytes) ≠ .refused)

/-- The event that happens where the agenda leaves the choice open (log 5): the free value, if it is an event of the
machine at all; otherwise nothing happens at this moment. -/
def runChoice (e : Event) (st : State) : Host.Outcome State Fault Refusal :=
  if admissible st.cfg e then runEvent e st else .next st

/-- The action is an action of the PLIC or of its environment that may fire in the state: it exists and its guard holds
(spec/00_scope.md section 6, spec/20_memory.md R70). -/
def enabled (st : State) (i : Instr) : Bool :=
  i.wf st.cfg &&
    match i with
    | .line _ _ => true
    | .fwdL s => canForwardLevel st s
    | .edgeI _ => true
    | .edgeC _ => true
    | .fwdC s => canForwardCount st s
    | .msi _ => true
    | .wprio r s w => st.headIs r (.wprio s w)
    | .wie r t k w => st.headIs r (.wie t k w)
    | .wthr r t w => st.headIs r (.wthr t w)
    | .rprio r s => st.headIs r (.rprio s)
    | .rie r t k => st.headIs r (.rie t k)
    | .rthr r t => st.headIs r (.rthr t)
    | .rip r k => st.headIs r (.rip k)
    | .accept s => canAccept st s
    | .claim r t => st.headIs r (.claim t)
    | .complete r t s => st.headIs r (.complete t s)
    | .resp r => canRespond st r
    | .notify t v => canNotify st t v

/-- The action that processes message `m` of requester `r` (spec/30_encoding.md R91, the rows with trigger "message"). -/
def processing (r : Nat) (m : Msg) : Instr :=
  match m with
  | .wprio s w => .wprio r s w
  | .wie t k w => .wie r t k w
  | .wthr t w => .wthr r t w
  | .rprio s => .rprio r s
  | .rie t k => .rie r t k
  | .rthr t => .rthr r t
  | .rip k => .rip r k
  | .claim t => .claim r t
  | .complete t s => .complete r t s

end Sys2Proof.Machine
end

