-- ==== Sys2Proof/Machine/Step.lean ====
section
/-! DEFINITION. One step, and where the host places an instruction (log 5).

The PLIC has no program counter and fetches nothing (spec/10_state.md R21): "which action happens next is decided only by
which actions are enabled". The choice among them is the agenda's, and where the agenda is empty the free value's. -/

namespace Sys2Proof.Machine

/-- One step: the first event of the agenda, or, where it is empty, the next free choice. -/
def step (st : State) : Host.Outcome State Fault Refusal :=
  match st.agenda with
  | e :: rest => runEvent e { st with agenda := rest }
  | [] => runChoice (Config.choice st.tick) { st with tick := st.tick + 1 }

/-- The state whose very next step runs the action word with these bits: the word is put at the front of the agenda and
nothing else changes. -/
def State.withFetchWord (s : State) (nbits w : Nat) : State :=
  { s with agenda := .action (tableWord nbits w) :: s.agenda }

end Sys2Proof.Machine
end

