-- ==== Sys2Proof/Safety.lean ====
section
/-! DEFINITION. What counts as a well-formed state (spec/10_state.md R46), a quiescent state (spec/20_memory.md R79), and
the relations between a state and the next one in which frames are stated. -/

namespace Sys2Proof.Machine

/-- Each register array has one element for each index of the configuration. -/
structure State.Shape (st : State) : Prop where
  ip : st.ip.length = numSources st.cfg
  prio : st.prio.length = numSources st.cfg
  ie : st.ie.length = numTargets st.cfg
  ieRows : ∀ t, t < numTargets st.cfg → (st.ieRow t).length = numSources st.cfg
  thr : st.thr.length = numTargets st.cfg
  busy : st.busy.length = numSources st.cfg
  cnt : st.cnt.length = numSources st.cfg
  line : st.line.length = numSources st.cfg
  reqQ : st.reqQ.length = numSources st.cfg
  inQ : st.inQ.length = st.cfg.reqs
  outQ : st.outQ.length = st.cfg.reqs
  rcvd : st.rcvd.length = st.cfg.reqs
  notif : st.notif.length = numTargets st.cfg
  seen0 : st.seen0.length = numTargets st.cfg
  seen1 : st.seen1.length = numTargets st.cfg

/-- A state is well-formed (spec/10_state.md R46), for a well-formed configuration; with it, that the queues hold only
messages and responses in range (spec/30_encoding.md R92), that a counter or level stands only where the gateway has one
(log 18), and what `wire` says of `notif` (spec/10_state.md R35). `State.legal` is the same as a check on data
(`inv_iff_legal`). -/
structure State.Inv (st : State) : Prop where
  cfgWf : st.cfg.wf = true
  shape : st.Shape
  prioLegal : ∀ s, s ≤ numSources st.cfg → 1 ≤ s → st.prioOf s = legalPrio st.cfg s (st.prioOf s)
  thrLegal : ∀ t, t < numTargets st.cfg → st.thrOf t = legalThr st.cfg t (st.thrOf t)
  ieLegal : ∀ t, t < numTargets st.cfg → ∀ s, s ≤ numSources st.cfg → 1 ≤ s →
    (ieKind st.cfg t s = .hard0 → st.ieOf t s = false) ∧ (ieKind st.cfg t s = .hard1 → st.ieOf t s = true)
  cntBound : ∀ s, s ≤ numSources st.cfg → ∀ m, m ∈ cntMax st.cfg s → st.cntOf s ≤ m
  reqCounted : ∀ s, s ≤ numSources st.cfg → isEdgeCount st.cfg s = true → st.reqQOf s ≤ st.cntOf s
  cntElsewhere : ∀ s, s ≤ numSources st.cfg → isEdgeCount st.cfg s = false → st.cntOf s = 0
  lineElsewhere : ∀ s, s ≤ numSources st.cfg → isLevel st.cfg s = false → st.lineOf s = false
  seen1 : ∀ t, t < numTargets st.cfg → st.eip t = true → st.seen1Of t = true
  seen0 : ∀ t, t < numTargets st.cfg → st.eip t = false → st.seen0Of t = true
  wire : st.cfg.notifyModel = .wire → ∀ t, t < numTargets st.cfg → st.notifOf t = st.eip t
  inQ : ∀ r, r < st.cfg.reqs → (st.inQOf r).all (msgInRange st.cfg) = true
  outQ : ∀ r, r < st.cfg.reqs → (st.outQOf r).all (respInRange st.cfg) = true

/-- What a target sees is an `EIP` value "that was valid at some point in the past" (spec/43_notification.md R173). -/
def State.NotifPast (st : State) : Prop :=
  ∀ t, t < numTargets st.cfg → (if st.notifOf t then st.seen1Of t else st.seen0Of t) = true

/-- A quiescent state (spec/20_memory.md R79), by the list that rule gives (log 17). Where moreover no stale notification
is on its way (`State.NothingStale`), only the environment changes it. -/
def State.Quiescent (st : State) : Prop :=
  (∀ r, r < st.cfg.reqs → st.inQOf r = [] ∧ st.outQOf r = [])
    ∧ (∀ s, s ≤ numSources st.cfg → 1 ≤ s → st.reqQOf s = 0 ∨ st.ipOf s = true)
    ∧ (∀ s, isLevel st.cfg s = true → st.lineOf s = false ∨ st.busyOf s = true)
    ∧ (∀ s, isEdgeCount st.cfg s = true → st.cntOf s = st.reqQOf s ∨ st.busyOf s = true)
    ∧ (∀ t, t < numTargets st.cfg → st.notifOf t = st.eip t)

/-- No notification with another value than the present `EIP` can still arrive. Under `wire` and `sample` that is so in
every state; under `anyPast` the guard of spec/43_notification.md R171 lets a past value arrive at any time, until stale
values have stopped arriving (R172, log 17). -/
def State.NothingStale (st : State) : Prop :=
  ∀ t v, isTarget st.cfg t = true → canNotify st t v = true → v = st.eip t

/-- The action is one of the environment's events (spec/30_encoding.md R91, trigger "event"). -/
def Environment : Instr → Bool
  | .line _ _ | .edgeI _ | .edgeC _ | .msi _ => true
  | .fwdL _ | .fwdC _ | .wprio _ _ _ | .wie _ _ _ _ | .wthr _ _ _ | .rprio _ _ | .rie _ _ _ | .rthr _ _ | .rip _ _
  | .accept _ | .claim _ _ | .complete _ _ _ | .resp _ | .notify _ _ => false

/-! Executions and fairness (spec/20_memory.md R70, R78; spec/43_notification.md R172). -/

/-- The core state, from which `EIP` is computed, is the same (spec/43_notification.md R172: "no action changes `IP`, `IE`,
`prio` or `thr`"). -/
def SameCore (st u : State) : Prop := u.ip = st.ip ∧ u.ie = st.ie ∧ u.prio = st.prio ∧ u.thr = st.thr

/-- An infinite execution (spec/20_memory.md R70): each state is obtained from the one before by the event that the
scheduler or the environment chose for that moment. An action chosen while its guard is false leaves the state as it is
(log 6), so a moment at which nothing happens is such an event. -/
def Execution (run : Nat → State) (chosen : Nat → Event) : Prop :=
  ∀ n, step { run n with agenda := [chosen n] } = .next (run (n + 1))

/-- The action that the event makes fire in the state: the one its word spells, if it exists and its guard holds. -/
def firing? (st : State) (e : Event) : Option Instr :=
  match e with
  | .action word =>
    match decodeWord word with
    | .ok i => if enabled st i then some i else none
    | .error _ => none
  | .send _ _ => none
  | .busRead _ _ _ => none
  | .busWrite _ _ _ => none

/-- The event that the next step takes: the first of the agenda, or the free choice (log 5). -/
def State.nextEvent (st : State) : Event :=
  match st.agenda with
  | e :: _ => e
  | [] => Config.choice st.tick

/-- At moment `n` the action fires. -/
def Fires (run : Nat → State) (chosen : Nat → Event) (n : Nat) (i : Instr) : Prop :=
  firing? (run n) (chosen n) = some i

/-- The action is one that fairness speaks of in this state: an enabled action of the PLIC (spec/20_memory.md R78), and of
the notifications the one that shows the present `EIP` (spec/43_notification.md R172). -/
def Due (st : State) (i : Instr) : Prop :=
  Environment i = false ∧ enabled st i = true ∧ ∀ t v, i = .notify t v → v = st.eip t

/-- A fair execution: an action of the PLIC that stays due is eventually taken (spec/20_memory.md R78, the spec's own
decision D10), and once the core is still "stale values stop arriving" (spec/43_notification.md R172). Log 16. -/
structure Fair (run : Nat → State) (chosen : Nat → Event) : Prop where
  weak : ∀ i n, (∀ m, n ≤ m → Due (run m) i) → ∃ m, n ≤ m ∧ Fires run chosen m i
  staleStops : ∀ t n, (∀ m, n ≤ m → SameCore (run n) (run m)) →
    ∃ m, ∀ k, m ≤ k → ∀ v, Fires run chosen k (.notify t v) → v = (run k).eip t

/-! The protocol software owes the PLIC (spec/42_claim_completion.md R155). -/

/-- At this moment a claim returns source `s`. -/
def claimsNow (st : State) (e : Event) (s : Nat) : Bool :=
  match firing? st e with
  | some (.claim _ t) => decide (st.best t = s)
  | _ => false

/-- At this moment a completion for source `s` is processed. -/
def completesNow (st : State) (e : Event) (s : Nat) : Bool :=
  match firing? st e with
  | some (.complete _ _ s') => decide (s' = s)
  | _ => false

/-- How many claims have returned `s` before moment `n` without a completion for `s` since. -/
def outstanding (run : Nat → State) (chosen : Nat → Event) (s : Nat) : Nat → Nat
  | 0 => 0
  | n + 1 =>
    outstanding run chosen s n + (claimsNow (run n) (chosen n) s).toNat - (completesNow (run n) (chosen n) s).toNat

/-- Software follows the protocol (spec/42_claim_completion.md R155): it "sends no completion for an ID it did not claim",
one for each claim, "with `t` a target for which `id` is enabled at that time". The model does not require it of the
requesters: it is a premise for statements that need it (log 39). -/
def FollowsProtocol (run : Nat → State) (chosen : Nat → Event) : Prop :=
  ∀ n r t s, Fires run chosen n (.complete r t s) → (run n).ieOf t s = true ∧ 1 ≤ outstanding run chosen s n

/-! Frames: what `u` has unchanged from `st`. -/

/-- The priorities, enables and thresholds are unchanged. -/
def SameRegisters (st u : State) : Prop := u.prio = st.prio ∧ u.ie = st.ie ∧ u.thr = st.thr

/-- The gateways' state and the waiting requests are unchanged. -/
def SameGateways (st u : State) : Prop := u.busy = st.busy ∧ u.cnt = st.cnt ∧ u.line = st.line ∧ u.reqQ = st.reqQ

/-- The message queues and what has been received are unchanged. -/
def SameQueues (st u : State) : Prop := u.inQ = st.inQ ∧ u.outQ = st.outQ ∧ u.rcvd = st.rcvd

/-- The notifications and the history bits are unchanged. -/
def SameNotifications (st u : State) : Prop := u.notif = st.notif ∧ u.seen0 = st.seen0 ∧ u.seen1 = st.seen1

/-- The configuration and the choices still to come are unchanged. -/
def SameModel (st u : State) : Prop := u.cfg = st.cfg ∧ u.agenda = st.agenda ∧ u.tick = st.tick

/-- The head of `inQ[r]` was taken and no other message moved. -/
def Dequeued (r : Nat) (st u : State) : Prop :=
  u.inQOf r = (st.inQOf r).tail ∧ (∀ r', r' ≠ r → u.inQOf r' = st.inQOf r') ∧ u.rcvd = st.rcvd

/-- The response `m` joined the end of `outQ[r]` and no other response moved. -/
def Answered (r : Nat) (m : Resp) (st u : State) : Prop :=
  u.outQOf r = st.outQOf r ++ [m] ∧ ∀ r', r' ≠ r → u.outQOf r' = st.outQOf r'

/-- After the action the history bits follow the new `EIP` (spec/10_state.md R36), and `notif` equals it under `wire` and
is unchanged otherwise (R35). -/
def HistoryFollows (st u : State) : Prop :=
  ∀ t, t < numTargets st.cfg →
    u.seen1Of t = (st.seen1Of t || u.eip t) ∧ u.seen0Of t = (st.seen0Of t || !u.eip t)
      ∧ u.notifOf t = (if st.cfg.notifyModel = .wire then u.eip t else st.notifOf t)

end Sys2Proof.Machine
end

