-- ==== Sys2Proof/Certificates/Slice0/Obligations.lean ====
section
/-! DEFINITION. The statements for the provers. Each docstring says which sentence of spec/ it formalises, or that it rests
on a choice of the model and which log entry names it. -/

open Sys2Proof Sys2Proof.Machine

/-! Action words and steps. -/

/-- The model's own action words (log 8): every action is read back from its word, whatever follows it. -/
def Obligations.DecodeOfEncodeIsTheAction : Prop :=
  ∀ (i : Instr) (rest : List Byte), decode (encode i ++ rest) = .ok (i, rest)

/-- The model's own action words (log 8): no bytes but a table row's number start a word. -/
def Obligations.ReservedRowsAreRefused : Prop :=
  ∀ (b : Byte) (bs : List Byte), (b.toNat / 4 = 0 ∨ 18 < b.toNat / 4) →
    decode (b :: bs) = .error (.reservedRow (b.toNat / 4))

/-- Words written out bit by bit from the layout of log 8 decode to the actions they stand for. -/
def Obligations.WrittenOutWordsDecode : Prop :=
  decodeWord [0b00000101, 0b00000010] = .ok (.line 2 true)
    ∧ decodeWord [0b00011100, 0b00000000, 0b00000010, 0b00000101] = .ok (.wprio 0 2 5)
    ∧ decodeWord [0b00100100, 0b00000001, 0b00000000, 0b10101100, 0b00000010] = .ok (.wthr 1 0 300)
    ∧ decodeWord [0b00111000, 0b00000011] = .ok (.accept 3)
    ∧ decodeWord [0b00111100, 0b00000001, 0b00000000] = .ok (.claim 1 0)
    ∧ decodeWord [0b01001001, 0b00000001] = .ok (.notify 1 true)

/-- A step whose event is an action word runs the decoded action in the state without that event (log 5). -/
def Obligations.StepRunsTheDecodedAction : Prop :=
  ∀ (st : State) (word : List Byte) (rest : List Event) (i : Instr),
    st.agenda = .action word :: rest → decodeWord word = .ok i → step st = exec i { st with agenda := rest }

/-- The state that `withFetchWord` makes runs, as its very next step, the action of the word (log 5). -/
def Obligations.PlacedWordRunsNext : Prop :=
  ∀ (st : State) (nbits w : Nat) (i : Instr),
    decodeTableWord nbits w = some i → step (st.withFetchWord nbits w) = exec i st

/-- spec/20_memory.md R70 as the model has it (log 5): where the agenda leaves the choice open, the machine never stops,
whatever the free value. -/
def Obligations.OpenChoiceNeverStops : Prop :=
  ∀ st : State, st.agenda = [] → ∃ u, step st = .next u ∧ u.tick = st.tick + 1 ∧ u.agenda = []

/-- spec/20_memory.md R62 and spec/10_state.md R33 (log 11): a message that a requester sends, or that its bus access
stands for, joins the end of that requester's queue and changes nothing else. A bus write that is ignored
(spec/60_exceptions.md R190, spec/92_eei_decisions.md D17) leaves the state as it was; an access that is refused makes the
step answer so (log 13). -/
def Obligations.SentMessagesAreQueued : Prop :=
  (∀ (st : State) (r : Nat) (m : Msg) (e : Event) (rest : List Event),
    st.agenda = e :: rest → st.Inv → r < st.cfg.reqs → msgInRange st.cfg m = true →
    (e = .send r m
      ∨ (∃ addr n, e = .busRead r addr n ∧ busReadMeaning st.cfg addr n = .message m)
      ∨ (∃ addr bytes, e = .busWrite r addr bytes
          ∧ busWriteMeaning st.cfg addr bytes.length (leValue bytes) = .message m)) →
    ∃ u, step st = .next u ∧ u.inQOf r = st.inQOf r ++ [m] ∧ (∀ r', r' ≠ r → u.inQOf r' = st.inQOf r')
      ∧ u.ip = st.ip ∧ SameRegisters st u ∧ SameGateways st u ∧ SameNotifications st u ∧ u.outQ = st.outQ
      ∧ u.rcvd = st.rcvd ∧ u.cfg = st.cfg ∧ u.agenda = rest ∧ u.tick = st.tick)
    ∧ (∀ (st : State) (r addr : Nat) (bytes : List Byte) (rest : List Event),
      st.agenda = .busWrite r addr bytes :: rest →
      (busWriteMeaning st.cfg addr bytes.length (leValue bytes) = .ignored →
        step st = .next { st with agenda := rest })
        ∧ (busWriteMeaning st.cfg addr bytes.length (leValue bytes) = .refused →
          step st = .refused .noSuchAccess))
    ∧ ∀ (st : State) (r addr n : Nat) (rest : List Event),
      st.agenda = .busRead r addr n :: rest → busReadMeaning st.cfg addr n = .refused →
      step st = .refused .noSuchAccess

/-! Invariants. -/

/-- spec/70_reset_and_hazards.md R230, for every well-formed configuration, that is with any `Init` satisfying R46 or with
the spec's own default R231 (log 3), and whatever levels the devices drive (log 4): the reset state is well-formed. Under
the default, `EIP(t) = 0` for every target. -/
def Obligations.ResetIsWellFormed : Prop :=
  (∀ (c : Cfg) (lines : List Bool), c.wf = true →
    (State.resetOf c lines).Inv
      ∧ (c.init = none → (State.resetOf c lines).NotifPast ∧ ∀ t, (State.resetOf c lines).eip t = false))
    ∧ State.reset.Inv ∧ State.reset.NotifPast

/-- spec/70_reset_and_hazards.md R231, the spec's own default (log 3): the value of each component after reset where the
platform gives no `Init`; and R230: where it gives one, that is the state after reset. That no response has been received
after reset is the model's own (log 12). -/
def Obligations.ResetLeavesTheseValues : Prop :=
  (∀ (c : Cfg) (lines : List Bool), c.wf = true → c.init = none →
    (∀ s, isSource c s = true →
      (State.resetOf c lines).ipOf s = false ∧ (State.resetOf c lines).prioOf s = prioOne c s
        ∧ (State.resetOf c lines).busyOf s = false ∧ (State.resetOf c lines).cntOf s = 0
        ∧ (State.resetOf c lines).reqQOf s = 0
        ∧ (isLevel c s = true → (State.resetOf c lines).lineOf s = at1 false lines s))
    ∧ (∀ t, isTarget c t = true →
      (State.resetOf c lines).thrOf t = 0 ∧ (State.resetOf c lines).notifOf t = false
        ∧ (State.resetOf c lines).seen0Of t = true ∧ (State.resetOf c lines).seen1Of t = false
        ∧ ∀ s, isSource c s = true →
          ((State.resetOf c lines).ieOf t s = true ↔ ieKind c t s = .hard1))
    ∧ (∀ r, (State.resetOf c lines).inQOf r = [] ∧ (State.resetOf c lines).outQOf r = []
        ∧ (State.resetOf c lines).rcvdOf r = []))
    ∧ ∀ (c : Cfg) (lines : List Bool) (x : InitState) (u : State), c.wf = true → c.init = some x →
      u = State.resetOf c lines →
      u.ip = x.ip ∧ u.prio = x.prio ∧ u.ie = x.ie ∧ u.thr = x.thr ∧ u.busy = x.busy ∧ u.cnt = x.cnt ∧ u.line = x.line
        ∧ u.reqQ = x.reqQ ∧ u.inQ = x.inQ ∧ u.outQ = x.outQ ∧ u.notif = x.notif ∧ u.seen0 = x.seen0
        ∧ u.seen1 = x.seen1 ∧ ∀ r, u.rcvdOf r = []

/-- spec/10_state.md R46: "Every action of this spec takes a well-formed state to a well-formed state"; here with the rest
of `State.Inv`, and for every step, whichever event it takes. -/
def Obligations.StepKeepsStatesWellFormed : Prop :=
  ∀ st u : State, st.Inv → step st = .next u → u.Inv

/-- spec/43_notification.md R173: what a target sees stays an `EIP` value that was valid at some point in the past, as the
history bits of R36 (the spec's own device, D9) record it. -/
def Obligations.StepKeepsNotificationsPast : Prop :=
  ∀ st u : State, st.Inv → st.NotifPast → step st = .next u → u.NotifPast

/-- spec/00_scope.md R7: the configuration "is a parameter of the step relation, not state: no action changes it" (log 1);
and the history bits "are never cleared" (spec/10_state.md R36). -/
def Obligations.StepKeepsConfigurationAndHistory : Prop :=
  ∀ st u : State, step st = .next u →
    u.cfg = st.cfg ∧ ∀ t, (st.seen0Of t = true → u.seen0Of t = true) ∧ (st.seen1Of t = true → u.seen1Of t = true)

/-! Derived functions of the core state. -/

/-- spec/10_state.md R39: `better` and `best(t)`. -/
def Obligations.BestIsTheBestEligibleSource : Prop :=
  (∀ (st : State) (s1 s2 : Nat),
    (st.better s1 s2 = true ↔ st.prioOf s1 > st.prioOf s2 ∨ (st.prioOf s1 = st.prioOf s2 ∧ s1 < s2))
      ∧ (s1 ≠ s2 → (st.better s1 s2 = true ↔ ¬ st.better s2 s1 = true))
      ∧ ∀ s3, st.better s1 s2 = true → st.better s2 s3 = true → st.better s1 s3 = true)
    ∧ ∀ (st : State) (t : Nat),
      (st.best t = 0 ↔ ∀ s, isSource st.cfg s = true → st.elig t s = false)
        ∧ (st.best t ≠ 0 → isSource st.cfg (st.best t) = true ∧ st.elig t (st.best t) = true
            ∧ ∀ s, isSource st.cfg s = true → st.elig t s = true → s ≠ st.best t → st.better (st.best t) s = true)

/-- spec/10_state.md R40: `EIP(t)`, and that it is a function of the core state alone. -/
def Obligations.EipIsCombinational : Prop :=
  (∀ (st : State) (t : Nat),
    st.eip t = true ↔
      ∃ s, isSource st.cfg s = true ∧ st.ipOf s = true ∧ st.ieOf t s = true ∧ st.prioOf s > st.thrOf t)
    ∧ ∀ (st u : State) (t : Nat), u.cfg = st.cfg → u.ip = st.ip → u.ie = st.ie → u.prio = st.prio → u.thr = st.thr →
      u.eip t = st.eip t

/-- spec/10_state.md R44 and spec/41_registers.md R142 (consequences the spec draws; the first rests on D4, log 22): what
an external interrupt pending says of claims, and what the thresholds mask. -/
def Obligations.EipAgainstClaimsAndThresholds : Prop :=
  ∀ (st : State) (t : Nat),
    (st.eip t = true → st.best t ≠ 0)
      ∧ ((∀ s, isSource st.cfg s = true → st.prioOf s ≤ st.thrOf t) → st.eip t = false)
      ∧ (st.thrOf t = 0 → (st.eip t = true ↔ st.best t ≠ 0))
      ∧ (∀ s, st.prioOf s = 0 → st.best t = s → s = 0)

/-- spec/92_eei_decisions.md D3, spec/10_state.md R37 (log 21, the spec's own choice): a claim does not look at any
threshold. In two states that differ in nothing but the thresholds it answers the same ID and clears the same bit. -/
def Obligations.ClaimsIgnoreThresholds : Prop :=
  ∀ (st : State) (r t : Nat) (thr' : List Nat), st.Inv → (st.inQOf r).head? = some (.claim t) →
    ∃ u v, exec (.claim r t) st = .next u ∧ exec (.claim r t) { st with thr := thr' } = .next v
      ∧ v.ip = u.ip ∧ v.outQ = u.outQ ∧ v.inQ = u.inQ ∧ v.busy = u.busy ∧ v.thr = thr' ∧ u.thr = st.thr
      ∧ ∀ t', v.best t' = u.best t'

/-! WARL fields. -/

/-- spec/10_state.md R43. -/
def Obligations.LegalEnableBit : Prop :=
  ∀ (c : Cfg) (t s : Nat) (b old : Bool),
    (ieKind c t s = .rw → legalIE c t s b old = b)
      ∧ (ieKind c t s = .hard0 → legalIE c t s b old = false)
      ∧ (ieKind c t s = .hard1 → legalIE c t s b old = true)

/-- spec/10_state.md R41 and R42 bit by bit (the spec's own reading, D5, log 23): hardwired-1 bits read 1, variable bits
hold what is written, every other bit reads 0; a legal value is written back unchanged, and every combination of the
variable bits can be held. -/
def Obligations.LegalPriorityAndThresholdBits : Prop :=
  ∀ c : Cfg, c.wf = true →
    (∀ s w i, (legalPrio c s w).testBit i = ((prioOne c s).testBit i || (w.testBit i && (prioVar c s).testBit i)))
      ∧ (∀ t w i, (legalThr c t w).testBit i = (w.testBit i && (thrVar c t).testBit i))
      ∧ (∀ s w, legalPrio c s (legalPrio c s w) = legalPrio c s w ∧ legalPrio c s w < 2 ^ c.pw)
      ∧ (∀ t w, legalThr c t (legalThr c t w) = legalThr c t w ∧ legalThr c t w < 2 ^ c.pw)
      ∧ (∀ t, legalThr c t 0 = 0)

/-- spec/41_registers.md R140, the discovery procedure as four actions of one requester with nothing between them (the
reads rest on D6, log 24): the two values read are the hardwired-1 bits and the bits that can be set, and the supported
levels are the first value with any combination of the variable bits. -/
def Obligations.DiscoveryFindsThePriorityBits : Prop :=
  ∀ (st : State) (r s : Nat) (q : List Msg), st.Inv →
    st.inQOf r = .wprio s 0 :: .rprio s :: .wprio s (2 ^ st.cfg.pw - 1) :: .rprio s :: q →
    ∃ u1 u2 u3 u4 a b,
      exec (.wprio r s 0) st = .next u1 ∧ exec (.rprio r s) u1 = .next u2
        ∧ exec (.wprio r s (2 ^ st.cfg.pw - 1)) u2 = .next u3 ∧ exec (.rprio r s) u3 = .next u4
        ∧ u4.outQOf r = st.outQOf r ++ [.rresp a, .rresp b] ∧ u4.inQOf r = q
        ∧ a = prioOne st.cfg s ∧ b = prioOne st.cfg s ||| prioVar st.cfg s ∧ u4.prioOf s = b
        ∧ ∀ v, (∃ w, legalPrio st.cfg s w = v) ↔ ∃ m, m &&& (b ^^^ a) = m ∧ v = a ||| m

/-! Gateways. -/

/-- spec/40_gateways.md R111 (the spec's reading of the signal, D24): LINE. -/
def Obligations.LineSetsTheLevel : Prop :=
  ∀ (st : State) (s : Nat) (b : Bool), st.Inv → isLevel st.cfg s = true →
    ∃ u, exec (.line s b) st = .next u ∧ u.lineOf s = b ∧ (∀ s', s' ≠ s → u.lineOf s' = st.lineOf s')
      ∧ u.ip = st.ip ∧ u.busy = st.busy ∧ u.cnt = st.cnt ∧ u.reqQ = st.reqQ ∧ SameRegisters st u ∧ SameQueues st u
      ∧ SameNotifications st u ∧ SameModel st u ∧ (b = st.lineOf s → u = st)

/-- spec/40_gateways.md R112 (with D15, log 28) and R115 (with D14, log 27): FWD.L and FWD.C forward one request. That the
same action, now disabled, changes nothing when it is chosen again is the model's choice (log 6). -/
def Obligations.ForwardingSendsOneRequest : Prop :=
  ∀ (st : State) (s : Nat), st.Inv → st.busyOf s = false →
    ∀ i, (i = .fwdL s ∧ isLevel st.cfg s = true ∧ st.lineOf s = true)
        ∨ (i = .fwdC s ∧ isEdgeCount st.cfg s = true ∧ st.cntOf s > st.reqQOf s) →
    ∃ u, exec i st = .next u ∧ u.busyOf s = true ∧ u.reqQOf s = st.reqQOf s + 1
      ∧ (∀ s', s' ≠ s → u.busyOf s' = st.busyOf s' ∧ u.reqQOf s' = st.reqQOf s')
      ∧ u.ip = st.ip ∧ u.cnt = st.cnt ∧ u.line = st.line ∧ SameRegisters st u ∧ SameQueues st u
      ∧ SameNotifications st u ∧ SameModel st u ∧ exec i u = .next u

/-- spec/40_gateways.md R113: EDGE.I forwards a request, or is lost while a completion is awaited. -/
def Obligations.EdgeAtIgnoringGateway : Prop :=
  ∀ (st : State) (s : Nat), st.Inv → isEdgeIgnore st.cfg s = true →
    (st.busyOf s = false →
      ∃ u, exec (.edgeI s) st = .next u ∧ u.busyOf s = true ∧ u.reqQOf s = st.reqQOf s + 1
        ∧ (∀ s', s' ≠ s → u.busyOf s' = st.busyOf s' ∧ u.reqQOf s' = st.reqQOf s')
        ∧ u.ip = st.ip ∧ u.cnt = st.cnt ∧ u.line = st.line ∧ SameRegisters st u ∧ SameQueues st u
        ∧ SameNotifications st u ∧ SameModel st u)
      ∧ (st.busyOf s = true → exec (.edgeI s) st = .next st)

/-- spec/40_gateways.md R114 (with D14, log 27): EDGE.C counts, up to the counter's bound. -/
def Obligations.EdgeAtCountingGateway : Prop :=
  ∀ (st : State) (s : Nat), st.Inv → isEdgeCount st.cfg s = true →
    ∃ u, exec (.edgeC s) st = .next u
      ∧ (cntMax st.cfg s = none → u.cntOf s = st.cntOf s + 1)
      ∧ (∀ m, cntMax st.cfg s = some m → u.cntOf s = if st.cntOf s < m then st.cntOf s + 1 else m)
      ∧ (∀ s', s' ≠ s → u.cntOf s' = st.cntOf s')
      ∧ u.ip = st.ip ∧ u.busy = st.busy ∧ u.line = st.line ∧ u.reqQ = st.reqQ ∧ SameRegisters st u
      ∧ SameQueues st u ∧ SameNotifications st u ∧ SameModel st u

/-- spec/40_gateways.md R116 (with D20, log 29): MSI does what an edge does at that gateway, and does it. -/
def Obligations.MsiActsAsAnEdge : Prop :=
  ∀ (st : State) (s : Nat), st.Inv →
    (isEdgeIgnore st.cfg s = true → ∃ u, exec (.msi s) st = .next u ∧ exec (.edgeI s) st = .next u
      ∧ u.busyOf s = true ∧ u.reqQOf s = (if st.busyOf s then st.reqQOf s else st.reqQOf s + 1)
      ∧ (∀ s', s' ≠ s → u.busyOf s' = st.busyOf s' ∧ u.reqQOf s' = st.reqQOf s')
      ∧ u.ip = st.ip ∧ u.cnt = st.cnt ∧ u.line = st.line ∧ SameRegisters st u ∧ SameQueues st u
      ∧ SameNotifications st u ∧ SameModel st u)
      ∧ (isEdgeCount st.cfg s = true → ∃ u, exec (.msi s) st = .next u ∧ exec (.edgeC s) st = .next u
        ∧ u.cntOf s = saturate st.cfg s (st.cntOf s + 1) ∧ (∀ s', s' ≠ s → u.cntOf s' = st.cntOf s')
        ∧ u.ip = st.ip ∧ u.busy = st.busy ∧ u.line = st.line ∧ u.reqQ = st.reqQ ∧ SameRegisters st u
        ∧ SameQueues st u ∧ SameNotifications st u ∧ SameModel st u)
      ∧ (isLevel st.cfg s = true → exec (.msi s) st = .refused .noSuchAction)

/-- spec/40_gateways.md R117: "No action of this file decrements `reqQ[s]` or clears `IP[s]`: `LINE s, 0` changes
`line[s]` and nothing else." -/
def Obligations.GatewaysNeverTakeARequestBack : Prop :=
  (∀ (st u : State) (i : Instr) (s : Nat), st.Inv →
    (i = .line s true ∨ i = .line s false ∨ i = .fwdL s ∨ i = .edgeI s ∨ i = .edgeC s ∨ i = .fwdC s ∨ i = .msi s) →
    exec i st = .next u → ∀ s', st.reqQOf s' ≤ u.reqQOf s' ∧ (st.ipOf s' = true → u.ipOf s' = true))
    ∧ ∀ (st : State) (s : Nat), st.Inv → isLevel st.cfg s = true →
      exec (.line s false) st = .next (st.setLine s false)

/-- spec/40_gateways.md R110: "forwarding a request sets `busy[s]` and adds one to `reqQ[s]`; no forwarding action is
enabled while `busy[s] = 1`; only COMPLETE clears `busy[s]`". -/
def Obligations.OneRequestAtATime : Prop :=
  ∀ (st u : State) (i : Instr) (s : Nat), st.Inv → exec i st = .next u →
    (st.reqQOf s < u.reqQOf s → st.busyOf s = false ∧ u.busyOf s = true ∧ u.reqQOf s = st.reqQOf s + 1)
      ∧ (st.busyOf s = true → u.reqQOf s ≤ st.reqQOf s)
      ∧ (st.busyOf s = true → u.busyOf s = false → ∃ r t, i = .complete r t s)
      ∧ (st.busyOf s = false → u.busyOf s = true → u.reqQOf s = st.reqQOf s + 1)

/-- spec/40_gateways.md R112 and R118 (the spec's inference): after an effective completion a level-sensitive gateway can
forward again exactly where the level is still asserted. -/
def Obligations.LevelStillAssertedForwardsAgain : Prop :=
  ∀ (st : State) (r t s : Nat), st.Inv → isLevel st.cfg s = true → st.ieOf t s = true →
    (st.inQOf r).head? = some (.complete t s) →
    ∃ u, exec (.complete r t s) st = .next u ∧ u.busyOf s = false
      ∧ (enabled u (.fwdL s) = true ↔ st.lineOf s = true)

/-! Registers. -/

/-- spec/41_registers.md R131: WPRIO. -/
def Obligations.WritePriority : Prop :=
  ∀ (st : State) (r s w : Nat), st.Inv → (st.inQOf r).head? = some (.wprio s w) →
    ∃ u, exec (.wprio r s w) st = .next u
      ∧ u.prioOf s = prioOne st.cfg s ||| ((w % 2 ^ st.cfg.pw) &&& prioVar st.cfg s)
      ∧ (∀ s', s' ≠ s → u.prioOf s' = st.prioOf s')
      ∧ (prioVar st.cfg s = 0 → u.prio = st.prio)
      ∧ (prioOne st.cfg s = 0 → w = 0 → u.prioOf s = 0)
      ∧ u.ip = st.ip ∧ u.ie = st.ie ∧ u.thr = st.thr ∧ SameGateways st u ∧ Dequeued r st u ∧ u.outQ = st.outQ
      ∧ HistoryFollows st u ∧ SameModel st u
      ∧ (∀ t, st.active t s = false → u.eip t = st.eip t)
      ∧ (∀ t, st.active t s = true → u.prioOf s > st.thrOf t → u.eip t = true)
      ∧ (∀ t, u.eip t = true ↔
          ∃ s', isSource st.cfg s' = true ∧ st.active t s' = true ∧ u.prioOf s' > st.thrOf t)

/-- spec/41_registers.md R132: WIE. The last clauses are its corner cases: the request stays claimable for other targets,
and clearing a bit makes a later completion ineffective. -/
def Obligations.WriteEnables : Prop :=
  ∀ (st : State) (r t k w : Nat), st.Inv → (st.inQOf r).head? = some (.wie t k w) →
    ∃ u, exec (.wie r t k w) st = .next u
      ∧ (∀ s, isSource st.cfg s = true → k * st.cfg.g ≤ s → s < k * st.cfg.g + st.cfg.g →
          (ieKind st.cfg t s = .rw → u.ieOf t s = w.testBit (s - k * st.cfg.g))
            ∧ (ieKind st.cfg t s ≠ .rw → u.ieOf t s = st.ieOf t s))
      ∧ (∀ s, ¬ (k * st.cfg.g ≤ s ∧ s < k * st.cfg.g + st.cfg.g) → u.ieOf t s = st.ieOf t s)
      ∧ (∀ t', t' ≠ t → u.ieRow t' = st.ieRow t' ∧ u.eip t' = st.eip t' ∧ u.best t' = st.best t')
      ∧ (u.eip t = true ↔ ∃ s, isSource st.cfg s = true ∧ st.ipOf s = true ∧ u.ieOf t s = true
          ∧ st.prioOf s > st.thrOf t)
      ∧ u.ip = st.ip ∧ u.prio = st.prio ∧ u.thr = st.thr ∧ SameGateways st u ∧ Dequeued r st u ∧ u.outQ = st.outQ
      ∧ HistoryFollows st u ∧ SameModel st u
      ∧ (∀ r' s, u.ieOf t s = false → (u.inQOf r').head? = some (.complete t s) →
          ∃ v, exec (.complete r' t s) u = .next v ∧ v.busy = u.busy)

/-- spec/41_registers.md R133 (the stored value rests on D5, log 23): WTHR. -/
def Obligations.WriteThreshold : Prop :=
  ∀ (st : State) (r t w : Nat), st.Inv → (st.inQOf r).head? = some (.wthr t w) →
    ∃ u, exec (.wthr r t w) st = .next u
      ∧ u.thrOf t = (w % 2 ^ st.cfg.pw) &&& thrVar st.cfg t
      ∧ (thrVar st.cfg t = 0 → u.thr = st.thr)
      ∧ (∀ t', t' ≠ t → u.thrOf t' = st.thrOf t' ∧ u.eip t' = st.eip t')
      ∧ (∀ t', u.best t' = st.best t')
      ∧ u.ip = st.ip ∧ u.prio = st.prio ∧ u.ie = st.ie ∧ SameGateways st u ∧ Dequeued r st u ∧ u.outQ = st.outQ
      ∧ HistoryFollows st u ∧ SameModel st u

/-- spec/41_registers.md R135 and R137 (with D6, log 24): RPRIO and RTHR answer the value held and have no side effect. -/
def Obligations.ReadsOfPriorityAndThreshold : Prop :=
  ∀ (st : State) (r : Nat) (i : Instr) (m : Msg) (v : Nat), st.Inv → (st.inQOf r).head? = some m →
    ((∃ s, m = .rprio s ∧ i = .rprio r s ∧ v = st.prioOf s)
      ∨ (∃ t, m = .rthr t ∧ i = .rthr r t ∧ v = st.thrOf t)) →
    ∃ u, exec i st = .next u ∧ Answered r (.rresp v) st u ∧ Dequeued r st u
      ∧ u.ip = st.ip ∧ SameRegisters st u ∧ SameGateways st u ∧ SameNotifications st u ∧ SameModel st u

/-- spec/41_registers.md R136 and R138 (with D6, log 24): RIE and RIP answer a value whose bit `i` is the bit of ID
`k*G+i`, 0 where that ID does not exist, and have no side effect. -/
def Obligations.ReadsOfPackedBits : Prop :=
  ∀ (st : State) (r k : Nat) (i : Instr) (m : Msg) (f : Nat → Bool), st.Inv → (st.inQOf r).head? = some m →
    ((∃ t, m = .rie t k ∧ i = .rie r t k ∧ f = st.ieOf t) ∨ (m = .rip k ∧ i = .rip r k ∧ f = st.ipOf)) →
    ∃ u v, exec i st = .next u ∧ Answered r (.rresp v) st u ∧ Dequeued r st u
      ∧ (∀ j, v.testBit j =
          (decide (j < st.cfg.g) && isSource st.cfg (k * st.cfg.g + j) && f (k * st.cfg.g + j)))
      ∧ u.ip = st.ip ∧ SameRegisters st u ∧ SameGateways st u ∧ SameNotifications st u ∧ SameModel st u

/-- spec/10_state.md R26, R27, R28 and R35: a priority, an enable bit and a threshold always hold a legal value (for
thresholds that is D5, log 23), and each is "written only by" its write action; a notification is written only by NOTIFY,
but under `wire`, where it is `EIP` (D9, log 30). -/
def Obligations.OnlyWritesChangePrioritiesAndEnables : Prop :=
  ∀ (st u : State) (i : Instr), st.Inv → exec i st = .next u →
    (∀ s, u.prioOf s ≠ st.prioOf s → ∃ r w, i = .wprio r s w ∧ u.prioOf s = legalPrio st.cfg s w)
      ∧ (∀ t s, u.ieOf t s ≠ st.ieOf t s → ieKind st.cfg t s = .rw ∧ ∃ r k w, i = .wie r t k w
          ∧ k * st.cfg.g ≤ s ∧ s < k * st.cfg.g + st.cfg.g ∧ u.ieOf t s = w.testBit (s - k * st.cfg.g))
      ∧ (∀ t, u.thrOf t ≠ st.thrOf t → ∃ r w, i = .wthr r t w ∧ u.thrOf t = legalThr st.cfg t w)
      ∧ (st.cfg.notifyModel ≠ .wire → ∀ t, u.notifOf t ≠ st.notifOf t → i = .notify t (u.notifOf t))
      ∧ (∀ s, isSource st.cfg s = true → ∃ v, u.prioOf s = prioOne st.cfg s ||| (v &&& prioVar st.cfg s))
      ∧ (∀ t s, isTarget st.cfg t = true → isSource st.cfg s = true →
          (ieKind st.cfg t s = .hard0 → u.ieOf t s = false) ∧ (ieKind st.cfg t s = .hard1 → u.ieOf t s = true))
      ∧ (∀ t, isTarget st.cfg t = true → ∃ v, u.thrOf t = v &&& thrVar st.cfg t)

/-- spec/41_registers.md R139 (the spec's inference): no register access touches a pending bit, a gateway, a waiting
request, or (but under `wire`, where `notif` is `EIP`) a notification. -/
def Obligations.RegisterAccessesKeepPendingAndGateways : Prop :=
  ∀ (st u : State) (r a b c : Nat) (i : Instr), st.Inv →
    (i = .wprio r a b ∨ i = .wie r a b c ∨ i = .wthr r a b ∨ i = .rprio r a ∨ i = .rie r a b ∨ i = .rthr r a
      ∨ i = .rip r a) →
    exec i st = .next u →
    u.ip = st.ip ∧ SameGateways st u ∧ (st.cfg.notifyModel ≠ .wire → u.notif = st.notif)

/-- spec/20_memory.md R65 (the spec's inference): the same value written twice leaves the registers as written once. -/
def Obligations.RepeatedWritesAreIdempotent : Prop :=
  ∀ (st u v : State) (r r' a b c : Nat) (i j : Instr), st.Inv →
    ((i = .wprio r a b ∧ j = .wprio r' a b) ∨ (i = .wie r a b c ∧ j = .wie r' a b c)
      ∨ (i = .wthr r a b ∧ j = .wthr r' a b)) →
    enabled st i = true → exec i st = .next u → exec j u = .next v →
    SameRegisters u v ∧ v.ip = u.ip ∧ SameGateways u v ∧ SameNotifications u v ∧ ∀ t, v.eip t = u.eip t

/-! Accepting, claiming, completing. -/

/-- spec/42_claim_completion.md R150: ACCEPT. That a disabled ACCEPT changes nothing when it is chosen is the model's choice
(log 6; R150 says that the request waits), and the history bits are the spec's own device (D9, log 30). -/
def Obligations.AcceptLatchesTheRequest : Prop :=
  ∀ (st : State) (s : Nat), st.Inv → isSource st.cfg s = true →
    (st.reqQOf s > 0 → st.ipOf s = false →
      ∃ u, exec (.accept s) st = .next u ∧ u.ipOf s = true ∧ u.reqQOf s = st.reqQOf s - 1
        ∧ (isEdgeCount st.cfg s = true → 1 ≤ st.cntOf s ∧ u.cntOf s = st.cntOf s - 1)
        ∧ (isEdgeCount st.cfg s = false → u.cnt = st.cnt)
        ∧ (∀ s', s' ≠ s → u.ipOf s' = st.ipOf s' ∧ u.reqQOf s' = st.reqQOf s' ∧ u.cntOf s' = st.cntOf s')
        ∧ u.busy = st.busy ∧ u.line = st.line ∧ SameRegisters st u ∧ SameQueues st u ∧ HistoryFollows st u
        ∧ SameModel st u
        ∧ (∀ t, st.ieOf t s = true → st.prioOf s > st.thrOf t → u.eip t = true))
      ∧ (st.ipOf s = true → exec (.accept s) st = .next st)

/-- spec/42_claim_completion.md R152 (which sources are eligible rests on D3 and D4, logs 21 and 22): CLAIM, and R153: it
is served whatever `EIP` is. -/
def Obligations.ClaimReturnsAndClearsTheBest : Prop :=
  ∀ (st : State) (r t : Nat), st.Inv → (st.inQOf r).head? = some (.claim t) →
    ∃ u, exec (.claim r t) st = .next u ∧ Answered r (.cresp (st.best t)) st u ∧ Dequeued r st u
      ∧ (∀ s, u.ipOf s = (st.ipOf s && decide (s ≠ st.best t)))
      ∧ (st.best t = 0 → u.ip = st.ip)
      ∧ SameRegisters st u ∧ SameGateways st u ∧ HistoryFollows st u ∧ SameModel st u

/-- spec/42_claim_completion.md R157: what is left of the target's `EIP` after a claim (the eligible set rests on D3 and D4,
logs 21 and 22). -/
def Obligations.EipAfterAClaim : Prop :=
  ∀ (st u : State) (r t : Nat), st.Inv → enabled st (.claim r t) = true → exec (.claim r t) st = .next u →
    ∀ t', u.eip t' = true ↔
      ∃ s, isSource st.cfg s = true ∧ s ≠ st.best t ∧ st.active t' s = true ∧ st.prioOf s > st.thrOf t'

/-- spec/42_claim_completion.md R154 (a completion without the enable bit is dropped: D7, log 25): COMPLETE. -/
def Obligations.CompletionReleasesTheGateway : Prop :=
  ∀ (st : State) (r t s : Nat), st.Inv → (st.inQOf r).head? = some (.complete t s) →
    ∃ u, exec (.complete r t s) st = .next u
      ∧ (st.ieOf t s = true → u.busyOf s = false) ∧ (st.ieOf t s = false → u.busy = st.busy)
      ∧ (∀ s', s' ≠ s → u.busyOf s' = st.busyOf s')
      ∧ u.cnt = st.cnt ∧ u.line = st.line ∧ u.reqQ = st.reqQ ∧ u.ip = st.ip ∧ SameRegisters st u
      ∧ Dequeued r st u ∧ u.outQ = st.outQ ∧ SameNotifications st u ∧ SameModel st u
      ∧ (∀ t', u.eip t' = st.eip t')

/-- spec/42_claim_completion.md R159 (with D18; the record of what was delivered is the model's, log 12): RESP. -/
def Obligations.ResponsesAreDeliveredInOrder : Prop :=
  ∀ (st : State) (r : Nat) (m : Resp) (q : List Resp), st.Inv → st.outQOf r = m :: q →
    ∃ u, exec (.resp r) st = .next u ∧ u.outQOf r = q ∧ u.rcvdOf r = st.rcvdOf r ++ [m]
      ∧ (∀ r', r' ≠ r → u.outQOf r' = st.outQOf r' ∧ u.rcvdOf r' = st.rcvdOf r')
      ∧ u.inQ = st.inQ ∧ u.ip = st.ip ∧ SameRegisters st u ∧ SameGateways st u ∧ SameNotifications st u
      ∧ SameModel st u

/-- spec/10_state.md R25: `IP[s]` "is set only by the action ACCEPT and cleared only by the action CLAIM", no register
write changes it, and RIP reads it. -/
def Obligations.OnlyAcceptSetsAndClaimClearsPending : Prop :=
  ∀ (st u : State) (i : Instr), st.Inv → exec i st = .next u →
    (∀ s, st.ipOf s = false → u.ipOf s = true → i = .accept s ∧ u.reqQOf s + 1 = st.reqQOf s)
      ∧ (∀ s, st.ipOf s = true → u.ipOf s = false → ∃ r t, i = .claim r t ∧ st.best t = s)
      ∧ (∀ r a b c, i = .wprio r a b ∨ i = .wie r a b c ∨ i = .wthr r a b → u.ip = st.ip)
      ∧ (∀ r k, i = .rip r k → enabled st i = true → ∃ v, u.outQOf r = st.outQOf r ++ [.rresp v]
          ∧ ∀ j, j < st.cfg.g → isSource st.cfg (k * st.cfg.g + j) = true →
            v.testBit j = st.ipOf (k * st.cfg.g + j))

/-- spec/42_claim_completion.md R152 corner case f and spec/20_memory.md R77, as the lemma of one step: a claim clears the
pending bit of the source it returns; a source that is not pending stays so through every step that does not fire its
ACCEPT, whichever event the step takes; and while it is not pending no claim by any target returns it. -/
def Obligations.NoRequestIsClaimedTwice : Prop :=
  ∀ st : State, st.Inv →
    (∀ (r t : Nat) (u : State), enabled st (.claim r t) = true → exec (.claim r t) st = .next u →
      u.ipOf (st.best t) = false ∧ (st.best t ≠ 0 → ∀ t', u.best t' ≠ st.best t))
      ∧ (∀ (id : Nat) (u : State), st.ipOf id = false → step st = .next u →
        firing? st st.nextEvent ≠ some (.accept id) → u.ipOf id = false)
      ∧ ∀ id t, id ≠ 0 → st.ipOf id = false → st.best t ≠ id

/-- spec/43_notification.md R174: accepting a request raises `EIP` of every enabled target whose threshold its priority
exceeds, each target by its own threshold, and of no other; the first claim takes it from all of them. -/
def Obligations.AcceptedInterruptsAreMulticast : Prop :=
  ∀ (st : State) (s : Nat), st.Inv → enabled st (.accept s) = true →
    ∃ u, exec (.accept s) st = .next u
      ∧ (∀ t, st.ieOf t s = true → st.prioOf s > st.thrOf t → u.eip t = true)
      ∧ (∀ t, ¬ (st.ieOf t s = true ∧ st.prioOf s > st.thrOf t) → u.eip t = st.eip t)
      ∧ ∀ r t v, enabled u (.claim r t) = true → u.best t = s → exec (.claim r t) u = .next v → ∀ t', v.best t' ≠ s

/-- spec/60_exceptions.md R205 ("treats each interrupt target independently"): what is written for one target changes
neither the `EIP` nor the claims of another. -/
def Obligations.TargetsAreIndependent : Prop :=
  ∀ (st u : State) (i : Instr) (r t k w : Nat), st.Inv → (i = .wie r t k w ∨ i = .wthr r t w) →
    exec i st = .next u →
    ∀ t', t' ≠ t → u.eip t' = st.eip t' ∧ u.best t' = st.best t' ∧ u.ieRow t' = st.ieRow t' ∧ u.thrOf t' = st.thrOf t'
      ∧ (st.cfg.notifyModel = .wire ∨ u.notifOf t' = st.notifOf t')

/-! Notifications. -/

/-- spec/43_notification.md R171 (with D9, log 30): NOTIFY under each notification model. -/
def Obligations.NotifyShowsAPastValue : Prop :=
  ∀ (st : State) (t : Nat) (v : Bool), st.Inv → isTarget st.cfg t = true →
    ((st.cfg.notifyModel = .sample ∧ v = st.eip t)
        ∨ (st.cfg.notifyModel = .anyPast ∧ ((v = false ∧ st.seen0Of t = true) ∨ (v = true ∧ st.seen1Of t = true))) →
      ∃ u, exec (.notify t v) st = .next u ∧ u.notifOf t = v ∧ (∀ t', t' ≠ t → u.notifOf t' = st.notifOf t')
        ∧ u.seen0 = st.seen0 ∧ u.seen1 = st.seen1 ∧ u.ip = st.ip ∧ SameRegisters st u ∧ SameGateways st u
        ∧ SameQueues st u ∧ SameModel st u ∧ (∀ t', u.eip t' = st.eip t'))
      ∧ (st.cfg.notifyModel = .wire → exec (.notify t v) st = .refused .noSuchAction ∧ st.notifOf t = st.eip t)

/-- spec/43_notification.md R171 (with D9, log 30): what `sample` admits, `anyPast` admits in the same state. -/
def Obligations.SampleIsWithinAnyPast : Prop :=
  ∀ (st u : State) (t : Nat) (v : Bool), st.Inv → st.cfg.notifyModel = .sample →
    u = { st with cfg := { st.cfg with notifyModel := .anyPast } } →
    enabled st (.notify t v) = true → u.Inv ∧ enabled u (.notify t v) = true

/-- spec/43_notification.md R172, the part one step can show (fairness is left out, log 16): wherever the target's view
differs from `EIP`, the notification that brings it up to date can fire, and does so without changing `EIP`. -/
def Obligations.NotificationCanCatchUp : Prop :=
  ∀ (st : State) (t : Nat), st.Inv → isTarget st.cfg t = true → st.notifOf t ≠ st.eip t →
    enabled st (.notify t (st.eip t)) = true
      ∧ ∃ u, exec (.notify t (st.eip t)) st = .next u ∧ u.notifOf t = u.eip t ∧ u.eip t = st.eip t

/-- spec/43_notification.md R172 for fair executions (fairness is D10's, log 16): "if from some state onward no action
changes `IP`, `IE`, `prio` or `thr` ..., then there is a later state from which onward `notif[t] = EIP(t)` for every
target `t`", under every notification model. -/
def Obligations.FairExecutionsDeliverEip : Prop :=
  ∀ (run : Nat → State) (chosen : Nat → Event) (n : Nat), (run 0).Inv → Execution run chosen → Fair run chosen →
    (∀ m, n ≤ m → SameCore (run n) (run m)) →
    ∃ m, n ≤ m ∧ ∀ k, m ≤ k → ∀ t, isTarget (run k).cfg t = true → (run k).notifOf t = (run k).eip t

/-- spec/20_memory.md R78 (D10, log 16), R72 (D8, log 26): in a fair execution every message waiting in a queue is
eventually processed, the head first. -/
def Obligations.FairExecutionsServeEveryMessage : Prop :=
  ∀ (run : Nat → State) (chosen : Nat → Event) (n r : Nat) (m : Msg) (q : List Msg), (run 0).Inv →
    Execution run chosen → Fair run chosen → (run n).inQOf r = m :: q →
    ∃ k, n ≤ k ∧ Fires run chosen k (processing r m)
      ∧ (∀ j, n ≤ j → j ≤ k → ∃ new, (run j).inQOf r = m :: q ++ new)
      ∧ ∃ new, (run (k + 1)).inQOf r = q ++ new

/-- spec/43_notification.md R175, where one target is that hart context (log 33). -/
def Obligations.NotificationIsTheExternalPendingBit : Prop :=
  ∀ (st : State) (t h : Nat) (x : Mode), isTarget st.cfg t = true →
    (∀ t', (st.cfg.targets[t']?).map TargetCfg.kind = some (.hartContext h x) ↔ t' = t) →
    st.externalPending h x = st.notifOf t

/-! Which actions fire. -/

/-- spec/00_scope.md section 6 ("may fire in any state where `G` holds") as the model has it (logs 6 and 7): an action that
exists and whose guard holds completes; one that exists and whose guard is false changes nothing; one that does not exist
in the configuration is refused. -/
def Obligations.ActionsFireExactlyWhenEnabled : Prop :=
  ∀ (st : State) (i : Instr),
    (enabled st i = true → ∃ u, exec i st = .next u)
      ∧ (i.wf st.cfg = true → enabled st i = false → exec i st = .next st)
      ∧ (i.wf st.cfg = false → exec i st = .refused .noSuchAction)

/-- spec/20_memory.md R72 (with D8, log 26): only the head of a requester's queue is eligible, and it is always: whatever
the rest of the state holds, its action completes and takes it from the queue. -/
def Obligations.HeadOfQueueIsProcessed : Prop :=
  ∀ (st : State) (r : Nat) (m : Msg) (q : List Msg), st.Inv → st.inQOf r = m :: q →
    (∃ u, exec (processing r m) st = .next u ∧ u.inQOf r = q ∧ ∀ r', r' ≠ r → u.inQOf r' = st.inQOf r')
      ∧ ∀ m', m' ≠ m → enabled st (processing r m') = false

/-- spec/20_memory.md R79 (with D23): in a quiescent state only the environment's events and notifications are enabled, and,
once no stale notification is on its way, no action of the PLIC changes the state: it "changes only by an action of the
environment". Under `wire` and `sample` no notification is ever stale; why one can be under `anyPast` is log 17, and that a
disabled action changes nothing is log 6. -/
def Obligations.QuiescentStatesAwaitTheEnvironment : Prop :=
  ∀ st : State, st.Inv → st.Quiescent →
    (∀ i, enabled st i = true → Environment i = true ∨ ∃ t v, i = .notify t v)
      ∧ (st.NothingStale → ∀ i, i.wf st.cfg = true → Environment i = false → exec i st = .next st)
      ∧ (st.cfg.notifyModel ≠ .anyPast → st.NothingStale)

/-- spec/42_claim_completion.md R160 (the spec's inference): a completion that follows no claim loses no request. The
second request of a level source still asserted waits behind the pending one and is accepted after a claim. -/
def Obligations.CompletionWithoutClaimLosesNothing : Prop :=
  ∀ (st : State) (r t s : Nat), st.Inv → isLevel st.cfg s = true → st.lineOf s = true → st.ipOf s = true →
    st.ieOf t s = true → (st.inQOf r).head? = some (.complete t s) →
    ∃ u v, exec (.complete r t s) st = .next u ∧ exec (.fwdL s) u = .next v
      ∧ v.reqQOf s = st.reqQOf s + 1 ∧ v.ipOf s = true ∧ enabled v (.accept s) = false
      ∧ ∀ r' t' x, enabled v (.claim r' t') = true → v.best t' = s → exec (.claim r' t') v = .next x →
        enabled x (.accept s) = true

/-- spec/42_claim_completion.md R156 for a level source, outside `wire`: the order of events in handling one interrupt of it
by a target, each step an action that completes, with the queue of the requester holding its claim and its completion. What
a claim may return rests on D3 and D4 (logs 21, 22), the notification on D9 (log 30). -/
def Obligations.InterruptFlowFromSourceToCompletion : Prop :=
  ∀ (st : State) (r t s : Nat) (q : List Msg), st.Inv → st.cfg.notifyModel ≠ .wire → isLevel st.cfg s = true →
    isTarget st.cfg t = true → st.busyOf s = false → st.reqQOf s = 0 → st.ipOf s = false → st.ieOf t s = true →
    st.prioOf s > st.thrOf t → (∀ s', s' ≠ s → st.elig t s' = true → st.better s s' = true) →
    st.inQOf r = .claim t :: .complete t s :: q → st.outQOf r = [] →
    ∃ u1 u2 u3 u4 u5 u6 u7,
      (exec (.line s true) st = .next u1 ∧ u1.lineOf s = true)
        ∧ (exec (.fwdL s) u1 = .next u2 ∧ u2.busyOf s = true ∧ u2.reqQOf s = 1)
        ∧ (exec (.accept s) u2 = .next u3 ∧ u3.ipOf s = true ∧ u3.reqQOf s = 0 ∧ u3.eip t = true)
        ∧ (exec (.notify t true) u3 = .next u4 ∧ u4.notifOf t = true)
        ∧ (exec (.claim r t) u4 = .next u5 ∧ u5.ipOf s = false ∧ u5.outQOf r = [.cresp s])
        ∧ (exec (.resp r) u5 = .next u6 ∧ u6.rcvdOf r = st.rcvdOf r ++ [.cresp s] ∧ u6.busyOf s = true)
        ∧ (exec (.complete r t s) u6 = .next u7 ∧ u7.busyOf s = false ∧ u7.inQOf r = q
          ∧ enabled u7 (.fwdL s) = true)

/-- spec/42_claim_completion.md R155, spec/10_state.md R32 and spec/40_gateways.md R115 (D8, D14: logs 26, 27): where
software follows the protocol, which is a premise on the execution (log 39), a gateway awaits a completion exactly while one
request of its source waits, is pending, or is claimed and not completed. So `reqQ[s]` is 0 or 1, and 0 whenever
`busy[s] = 0`. -/
def Obligations.ProtocolKeepsOneRequestPerSource : Prop :=
  ∀ (run : Nat → State) (chosen : Nat → Event), (run 0).Inv → Execution run chosen → FollowsProtocol run chosen →
    (∀ s, (run 0).busyOf s = false ∧ (run 0).reqQOf s = 0 ∧ (run 0).ipOf s = false) →
    ∀ n s, isSource (run n).cfg s = true →
      ((run n).busyOf s).toNat = (run n).reqQOf s + ((run n).ipOf s).toNat + outstanding run chosen s n
        ∧ (run n).reqQOf s ≤ 1 ∧ ((run n).busyOf s = false → (run n).reqQOf s = 0)

/-! Bus accesses. -/

/-- spec/20_memory.md R64 (D13, log 35): "the unsigned integer whose least significant byte is at the lowest address". Byte
`i` of a value is the value divided by `256 ^ i`, modulo 256, written or read, in the data of a response too; what is written
is read back. A response wider than the access keeps its low bytes (the model's choice, log 40). -/
def Obligations.BusValuesAreLittleEndian : Prop :=
  (∀ n v, (leBytes n v).length = n ∧ (∀ i, i < n → ((leBytes n v).getD i 0).toNat = v / 256 ^ i % 256)
    ∧ leValue (leBytes n v) = v % 256 ^ n)
    ∧ (∀ bs : List Byte, leValue bs < 256 ^ bs.length
      ∧ (∀ i, i < bs.length → leValue bs / 256 ^ i % 256 = (bs.getD i 0).toNat) ∧ leBytes bs.length (leValue bs) = bs)
    ∧ ∀ (m : Resp) (n v : Nat), (m = .cresp v ∨ m = .rresp v) →
      (m.dataBytes n).length = n ∧ ∀ i, i < n → ((m.dataBytes n).getD i 0).toNat = v / 256 ^ i % 256

/-- spec/30_encoding.md R101 and R102 (general knowledge in the spec; log 14): what each register's address means under
the reference instance, for each register that exists. Every other address, inside the window or outside, is no register:
a read is refused and a write ignored (D17, R190; log 13); an access of another width or alignment is refused. -/
def Obligations.ReferenceMapReachesEachRegister : Prop :=
  ∀ (c : Cfg) (base w : Nat), c.wf = true → c.regMap = .reference base →
    (∀ s, isSource c s = true →
      busReadMeaning c (base + 4 * s) 4 = .message (.rprio s)
        ∧ busWriteMeaning c (base + 4 * s) 4 w = .message (.wprio s w))
      ∧ (∀ k, isPackedReg c k = true →
        busReadMeaning c (base + 0x1000 + 4 * k) 4 = .message (.rip k)
          ∧ busWriteMeaning c (base + 0x1000 + 4 * k) 4 w = .ignored)
      ∧ (∀ t, isTarget c t = true →
        (∀ k, isPackedReg c k = true →
          busReadMeaning c (base + 0x2000 + 0x80 * t + 4 * k) 4 = .message (.rie t k)
            ∧ busWriteMeaning c (base + 0x2000 + 0x80 * t + 4 * k) 4 w = .message (.wie t k w))
          ∧ busReadMeaning c (base + 0x200000 + 0x1000 * t) 4 = .message (.rthr t)
          ∧ busWriteMeaning c (base + 0x200000 + 0x1000 * t) 4 w = .message (.wthr t w)
          ∧ busReadMeaning c (base + 0x200004 + 0x1000 * t) 4 = .message (.claim t)
          ∧ busWriteMeaning c (base + 0x200004 + 0x1000 * t) 4 w
              = (if isSource c w then .message (.complete t w) else .ignored))
      ∧ (∀ addr, addr % 4 = 0 → (∀ s, isSource c s = true → addr ≠ base + 4 * s) →
        (∀ k, isPackedReg c k = true → addr ≠ base + 0x1000 + 4 * k
          ∧ ∀ t, isTarget c t = true → addr ≠ base + 0x2000 + 0x80 * t + 4 * k) →
        (∀ t, isTarget c t = true → addr ≠ base + 0x200000 + 0x1000 * t ∧ addr ≠ base + 0x200004 + 0x1000 * t) →
        busReadMeaning c addr 4 = .refused ∧ busWriteMeaning c addr 4 w = .ignored)
      ∧ ∀ addr n, (n ≠ 4 ∨ addr % 4 ≠ 0) →
        busReadMeaning c addr n = .refused ∧ busWriteMeaning c addr n w = .refused

/-- spec/30_encoding.md R100 (D12) for every map, and spec/60_exceptions.md R190, spec/92_eei_decisions.md D13, D17 (log 13):
a read stands only for a message that reads or claims, a write only for one that writes or completes, each in range; where
the width and alignment fit, a read of what the map does not define is refused and such a write ignored, and no write is
refused. -/
def Obligations.AccessesBecomeMessagesOfTheirKind : Prop :=
  ∀ (c : Cfg) (addr n w : Nat),
    (∀ m, busReadMeaning c addr n = .message m → msgInRange c m = true
      ∧ ((∃ s, m = .rprio s) ∨ (∃ t k, m = .rie t k) ∨ (∃ t, m = .rthr t) ∨ (∃ k, m = .rip k) ∨ ∃ t, m = .claim t))
      ∧ (∀ m, busWriteMeaning c addr n w = .message m → msgInRange c m = true
        ∧ ((∃ s, m = .wprio s w) ∨ (∃ t k, m = .wie t k w) ∨ (∃ t, m = .wthr t w) ∨ ∃ t, m = .complete t w))
      ∧ (accessFits c.regMap addr n = false →
        busReadMeaning c addr n = .refused ∧ busWriteMeaning c addr n w = .refused)
      ∧ (accessFits c.regMap addr n = true →
        busReadMeaning c addr n ≠ .ignored ∧ busWriteMeaning c addr n w ≠ .refused
          ∧ (readPort? c.regMap addr = none → busReadMeaning c addr n = .refused)
          ∧ (writePort? c.regMap addr = none → busWriteMeaning c addr n w = .ignored))

/-- spec/30_encoding.md R100, R102 and spec/20_memory.md R63: the claim, completion and threshold registers of a target
share a region that the platform's protection grants as one with no other target's and with no priority, pending or enable
register, whether read or written. The region is a 4 KiB page under the reference instance (general knowledge in the spec;
log 14) and the map's own granule under a listed map (log 15). -/
def Obligations.ReferenceMapSeparatesTargets : Prop :=
  ∀ (c : Cfg) (region a a' t n n' w w' : Nat) (m m' : Msg), c.wf = true →
    ((∃ base, c.regMap = .reference base ∧ region = 4096)
      ∨ ∃ xw reads writes, c.regMap = .table xw region reads writes) →
    (busReadMeaning c a n = .message m ∨ busWriteMeaning c a n w = .message m) →
    (busReadMeaning c a' n' = .message m' ∨ busWriteMeaning c a' n' w' = .message m') →
    a / region = a' / region →
    (m = .claim t ∨ m = .rthr t ∨ (∃ v, m = .wthr t v) ∨ ∃ s, m = .complete t s) →
    m' = .claim t ∨ m' = .rthr t ∨ (∃ v, m' = .wthr t v) ∨ ∃ s, m' = .complete t s
end

