-- ==== Sys2Proof/Laws/State.lean ====
section
/-! SUPPORT. One lemma for each field and each update of the state, true by definition: no later proof unfolds an update. -/

namespace Sys2Proof.Machine

@[simp] theorem State.setIp_cfg (st : State) (s : Nat) (v : Bool) : (st.setIp s v).cfg = st.cfg := rfl
@[simp] theorem State.setIp_ip (st : State) (s : Nat) (v : Bool) : (st.setIp s v).ip = set1 st.ip s v := rfl
@[simp] theorem State.setIp_prio (st : State) (s : Nat) (v : Bool) : (st.setIp s v).prio = st.prio := rfl
@[simp] theorem State.setIp_ie (st : State) (s : Nat) (v : Bool) : (st.setIp s v).ie = st.ie := rfl
@[simp] theorem State.setIp_thr (st : State) (s : Nat) (v : Bool) : (st.setIp s v).thr = st.thr := rfl
@[simp] theorem State.setIp_busy (st : State) (s : Nat) (v : Bool) : (st.setIp s v).busy = st.busy := rfl
@[simp] theorem State.setIp_cnt (st : State) (s : Nat) (v : Bool) : (st.setIp s v).cnt = st.cnt := rfl
@[simp] theorem State.setIp_line (st : State) (s : Nat) (v : Bool) : (st.setIp s v).line = st.line := rfl
@[simp] theorem State.setIp_reqQ (st : State) (s : Nat) (v : Bool) : (st.setIp s v).reqQ = st.reqQ := rfl
@[simp] theorem State.setIp_inQ (st : State) (s : Nat) (v : Bool) : (st.setIp s v).inQ = st.inQ := rfl
@[simp] theorem State.setIp_outQ (st : State) (s : Nat) (v : Bool) : (st.setIp s v).outQ = st.outQ := rfl
@[simp] theorem State.setIp_rcvd (st : State) (s : Nat) (v : Bool) : (st.setIp s v).rcvd = st.rcvd := rfl
@[simp] theorem State.setIp_notif (st : State) (s : Nat) (v : Bool) : (st.setIp s v).notif = st.notif := rfl
@[simp] theorem State.setIp_seen0 (st : State) (s : Nat) (v : Bool) : (st.setIp s v).seen0 = st.seen0 := rfl
@[simp] theorem State.setIp_seen1 (st : State) (s : Nat) (v : Bool) : (st.setIp s v).seen1 = st.seen1 := rfl
@[simp] theorem State.setIp_agenda (st : State) (s : Nat) (v : Bool) : (st.setIp s v).agenda = st.agenda := rfl
@[simp] theorem State.setIp_tick (st : State) (s : Nat) (v : Bool) : (st.setIp s v).tick = st.tick := rfl

@[simp] theorem State.setPrio_cfg (st : State) (s v : Nat) : (st.setPrio s v).cfg = st.cfg := rfl
@[simp] theorem State.setPrio_ip (st : State) (s v : Nat) : (st.setPrio s v).ip = st.ip := rfl
@[simp] theorem State.setPrio_prio (st : State) (s v : Nat) : (st.setPrio s v).prio = set1 st.prio s v := rfl
@[simp] theorem State.setPrio_ie (st : State) (s v : Nat) : (st.setPrio s v).ie = st.ie := rfl
@[simp] theorem State.setPrio_thr (st : State) (s v : Nat) : (st.setPrio s v).thr = st.thr := rfl
@[simp] theorem State.setPrio_busy (st : State) (s v : Nat) : (st.setPrio s v).busy = st.busy := rfl
@[simp] theorem State.setPrio_cnt (st : State) (s v : Nat) : (st.setPrio s v).cnt = st.cnt := rfl
@[simp] theorem State.setPrio_line (st : State) (s v : Nat) : (st.setPrio s v).line = st.line := rfl
@[simp] theorem State.setPrio_reqQ (st : State) (s v : Nat) : (st.setPrio s v).reqQ = st.reqQ := rfl
@[simp] theorem State.setPrio_inQ (st : State) (s v : Nat) : (st.setPrio s v).inQ = st.inQ := rfl
@[simp] theorem State.setPrio_outQ (st : State) (s v : Nat) : (st.setPrio s v).outQ = st.outQ := rfl
@[simp] theorem State.setPrio_rcvd (st : State) (s v : Nat) : (st.setPrio s v).rcvd = st.rcvd := rfl
@[simp] theorem State.setPrio_notif (st : State) (s v : Nat) : (st.setPrio s v).notif = st.notif := rfl
@[simp] theorem State.setPrio_seen0 (st : State) (s v : Nat) : (st.setPrio s v).seen0 = st.seen0 := rfl
@[simp] theorem State.setPrio_seen1 (st : State) (s v : Nat) : (st.setPrio s v).seen1 = st.seen1 := rfl
@[simp] theorem State.setPrio_agenda (st : State) (s v : Nat) : (st.setPrio s v).agenda = st.agenda := rfl
@[simp] theorem State.setPrio_tick (st : State) (s v : Nat) : (st.setPrio s v).tick = st.tick := rfl

@[simp] theorem State.setIeRow_cfg (st : State) (t : Nat) (row : List Bool) : (st.setIeRow t row).cfg = st.cfg := rfl
@[simp] theorem State.setIeRow_ip (st : State) (t : Nat) (row : List Bool) : (st.setIeRow t row).ip = st.ip := rfl
@[simp] theorem State.setIeRow_prio (st : State) (t : Nat) (row : List Bool) : (st.setIeRow t row).prio = st.prio := rfl
@[simp] theorem State.setIeRow_ie (st : State) (t : Nat) (row : List Bool) : (st.setIeRow t row).ie = st.ie.set t row := rfl
@[simp] theorem State.setIeRow_thr (st : State) (t : Nat) (row : List Bool) : (st.setIeRow t row).thr = st.thr := rfl
@[simp] theorem State.setIeRow_busy (st : State) (t : Nat) (row : List Bool) : (st.setIeRow t row).busy = st.busy := rfl
@[simp] theorem State.setIeRow_cnt (st : State) (t : Nat) (row : List Bool) : (st.setIeRow t row).cnt = st.cnt := rfl
@[simp] theorem State.setIeRow_line (st : State) (t : Nat) (row : List Bool) : (st.setIeRow t row).line = st.line := rfl
@[simp] theorem State.setIeRow_reqQ (st : State) (t : Nat) (row : List Bool) : (st.setIeRow t row).reqQ = st.reqQ := rfl
@[simp] theorem State.setIeRow_inQ (st : State) (t : Nat) (row : List Bool) : (st.setIeRow t row).inQ = st.inQ := rfl
@[simp] theorem State.setIeRow_outQ (st : State) (t : Nat) (row : List Bool) : (st.setIeRow t row).outQ = st.outQ := rfl
@[simp] theorem State.setIeRow_rcvd (st : State) (t : Nat) (row : List Bool) : (st.setIeRow t row).rcvd = st.rcvd := rfl
@[simp] theorem State.setIeRow_notif (st : State) (t : Nat) (row : List Bool) : (st.setIeRow t row).notif = st.notif := rfl
@[simp] theorem State.setIeRow_seen0 (st : State) (t : Nat) (row : List Bool) : (st.setIeRow t row).seen0 = st.seen0 := rfl
@[simp] theorem State.setIeRow_seen1 (st : State) (t : Nat) (row : List Bool) : (st.setIeRow t row).seen1 = st.seen1 := rfl
@[simp] theorem State.setIeRow_agenda (st : State) (t : Nat) (row : List Bool) : (st.setIeRow t row).agenda = st.agenda := rfl
@[simp] theorem State.setIeRow_tick (st : State) (t : Nat) (row : List Bool) : (st.setIeRow t row).tick = st.tick := rfl

@[simp] theorem State.setThr_cfg (st : State) (t v : Nat) : (st.setThr t v).cfg = st.cfg := rfl
@[simp] theorem State.setThr_ip (st : State) (t v : Nat) : (st.setThr t v).ip = st.ip := rfl
@[simp] theorem State.setThr_prio (st : State) (t v : Nat) : (st.setThr t v).prio = st.prio := rfl
@[simp] theorem State.setThr_ie (st : State) (t v : Nat) : (st.setThr t v).ie = st.ie := rfl
@[simp] theorem State.setThr_thr (st : State) (t v : Nat) : (st.setThr t v).thr = st.thr.set t v := rfl
@[simp] theorem State.setThr_busy (st : State) (t v : Nat) : (st.setThr t v).busy = st.busy := rfl
@[simp] theorem State.setThr_cnt (st : State) (t v : Nat) : (st.setThr t v).cnt = st.cnt := rfl
@[simp] theorem State.setThr_line (st : State) (t v : Nat) : (st.setThr t v).line = st.line := rfl
@[simp] theorem State.setThr_reqQ (st : State) (t v : Nat) : (st.setThr t v).reqQ = st.reqQ := rfl
@[simp] theorem State.setThr_inQ (st : State) (t v : Nat) : (st.setThr t v).inQ = st.inQ := rfl
@[simp] theorem State.setThr_outQ (st : State) (t v : Nat) : (st.setThr t v).outQ = st.outQ := rfl
@[simp] theorem State.setThr_rcvd (st : State) (t v : Nat) : (st.setThr t v).rcvd = st.rcvd := rfl
@[simp] theorem State.setThr_notif (st : State) (t v : Nat) : (st.setThr t v).notif = st.notif := rfl
@[simp] theorem State.setThr_seen0 (st : State) (t v : Nat) : (st.setThr t v).seen0 = st.seen0 := rfl
@[simp] theorem State.setThr_seen1 (st : State) (t v : Nat) : (st.setThr t v).seen1 = st.seen1 := rfl
@[simp] theorem State.setThr_agenda (st : State) (t v : Nat) : (st.setThr t v).agenda = st.agenda := rfl
@[simp] theorem State.setThr_tick (st : State) (t v : Nat) : (st.setThr t v).tick = st.tick := rfl

@[simp] theorem State.setBusy_cfg (st : State) (s : Nat) (v : Bool) : (st.setBusy s v).cfg = st.cfg := rfl
@[simp] theorem State.setBusy_ip (st : State) (s : Nat) (v : Bool) : (st.setBusy s v).ip = st.ip := rfl
@[simp] theorem State.setBusy_prio (st : State) (s : Nat) (v : Bool) : (st.setBusy s v).prio = st.prio := rfl
@[simp] theorem State.setBusy_ie (st : State) (s : Nat) (v : Bool) : (st.setBusy s v).ie = st.ie := rfl
@[simp] theorem State.setBusy_thr (st : State) (s : Nat) (v : Bool) : (st.setBusy s v).thr = st.thr := rfl
@[simp] theorem State.setBusy_busy (st : State) (s : Nat) (v : Bool) : (st.setBusy s v).busy = set1 st.busy s v := rfl
@[simp] theorem State.setBusy_cnt (st : State) (s : Nat) (v : Bool) : (st.setBusy s v).cnt = st.cnt := rfl
@[simp] theorem State.setBusy_line (st : State) (s : Nat) (v : Bool) : (st.setBusy s v).line = st.line := rfl
@[simp] theorem State.setBusy_reqQ (st : State) (s : Nat) (v : Bool) : (st.setBusy s v).reqQ = st.reqQ := rfl
@[simp] theorem State.setBusy_inQ (st : State) (s : Nat) (v : Bool) : (st.setBusy s v).inQ = st.inQ := rfl
@[simp] theorem State.setBusy_outQ (st : State) (s : Nat) (v : Bool) : (st.setBusy s v).outQ = st.outQ := rfl
@[simp] theorem State.setBusy_rcvd (st : State) (s : Nat) (v : Bool) : (st.setBusy s v).rcvd = st.rcvd := rfl
@[simp] theorem State.setBusy_notif (st : State) (s : Nat) (v : Bool) : (st.setBusy s v).notif = st.notif := rfl
@[simp] theorem State.setBusy_seen0 (st : State) (s : Nat) (v : Bool) : (st.setBusy s v).seen0 = st.seen0 := rfl
@[simp] theorem State.setBusy_seen1 (st : State) (s : Nat) (v : Bool) : (st.setBusy s v).seen1 = st.seen1 := rfl
@[simp] theorem State.setBusy_agenda (st : State) (s : Nat) (v : Bool) : (st.setBusy s v).agenda = st.agenda := rfl
@[simp] theorem State.setBusy_tick (st : State) (s : Nat) (v : Bool) : (st.setBusy s v).tick = st.tick := rfl

@[simp] theorem State.setCnt_cfg (st : State) (s v : Nat) : (st.setCnt s v).cfg = st.cfg := rfl
@[simp] theorem State.setCnt_ip (st : State) (s v : Nat) : (st.setCnt s v).ip = st.ip := rfl
@[simp] theorem State.setCnt_prio (st : State) (s v : Nat) : (st.setCnt s v).prio = st.prio := rfl
@[simp] theorem State.setCnt_ie (st : State) (s v : Nat) : (st.setCnt s v).ie = st.ie := rfl
@[simp] theorem State.setCnt_thr (st : State) (s v : Nat) : (st.setCnt s v).thr = st.thr := rfl
@[simp] theorem State.setCnt_busy (st : State) (s v : Nat) : (st.setCnt s v).busy = st.busy := rfl
@[simp] theorem State.setCnt_cnt (st : State) (s v : Nat) : (st.setCnt s v).cnt = set1 st.cnt s v := rfl
@[simp] theorem State.setCnt_line (st : State) (s v : Nat) : (st.setCnt s v).line = st.line := rfl
@[simp] theorem State.setCnt_reqQ (st : State) (s v : Nat) : (st.setCnt s v).reqQ = st.reqQ := rfl
@[simp] theorem State.setCnt_inQ (st : State) (s v : Nat) : (st.setCnt s v).inQ = st.inQ := rfl
@[simp] theorem State.setCnt_outQ (st : State) (s v : Nat) : (st.setCnt s v).outQ = st.outQ := rfl
@[simp] theorem State.setCnt_rcvd (st : State) (s v : Nat) : (st.setCnt s v).rcvd = st.rcvd := rfl
@[simp] theorem State.setCnt_notif (st : State) (s v : Nat) : (st.setCnt s v).notif = st.notif := rfl
@[simp] theorem State.setCnt_seen0 (st : State) (s v : Nat) : (st.setCnt s v).seen0 = st.seen0 := rfl
@[simp] theorem State.setCnt_seen1 (st : State) (s v : Nat) : (st.setCnt s v).seen1 = st.seen1 := rfl
@[simp] theorem State.setCnt_agenda (st : State) (s v : Nat) : (st.setCnt s v).agenda = st.agenda := rfl
@[simp] theorem State.setCnt_tick (st : State) (s v : Nat) : (st.setCnt s v).tick = st.tick := rfl

@[simp] theorem State.setLine_cfg (st : State) (s : Nat) (v : Bool) : (st.setLine s v).cfg = st.cfg := rfl
@[simp] theorem State.setLine_ip (st : State) (s : Nat) (v : Bool) : (st.setLine s v).ip = st.ip := rfl
@[simp] theorem State.setLine_prio (st : State) (s : Nat) (v : Bool) : (st.setLine s v).prio = st.prio := rfl
@[simp] theorem State.setLine_ie (st : State) (s : Nat) (v : Bool) : (st.setLine s v).ie = st.ie := rfl
@[simp] theorem State.setLine_thr (st : State) (s : Nat) (v : Bool) : (st.setLine s v).thr = st.thr := rfl
@[simp] theorem State.setLine_busy (st : State) (s : Nat) (v : Bool) : (st.setLine s v).busy = st.busy := rfl
@[simp] theorem State.setLine_cnt (st : State) (s : Nat) (v : Bool) : (st.setLine s v).cnt = st.cnt := rfl
@[simp] theorem State.setLine_line (st : State) (s : Nat) (v : Bool) : (st.setLine s v).line = set1 st.line s v := rfl
@[simp] theorem State.setLine_reqQ (st : State) (s : Nat) (v : Bool) : (st.setLine s v).reqQ = st.reqQ := rfl
@[simp] theorem State.setLine_inQ (st : State) (s : Nat) (v : Bool) : (st.setLine s v).inQ = st.inQ := rfl
@[simp] theorem State.setLine_outQ (st : State) (s : Nat) (v : Bool) : (st.setLine s v).outQ = st.outQ := rfl
@[simp] theorem State.setLine_rcvd (st : State) (s : Nat) (v : Bool) : (st.setLine s v).rcvd = st.rcvd := rfl
@[simp] theorem State.setLine_notif (st : State) (s : Nat) (v : Bool) : (st.setLine s v).notif = st.notif := rfl
@[simp] theorem State.setLine_seen0 (st : State) (s : Nat) (v : Bool) : (st.setLine s v).seen0 = st.seen0 := rfl
@[simp] theorem State.setLine_seen1 (st : State) (s : Nat) (v : Bool) : (st.setLine s v).seen1 = st.seen1 := rfl
@[simp] theorem State.setLine_agenda (st : State) (s : Nat) (v : Bool) : (st.setLine s v).agenda = st.agenda := rfl
@[simp] theorem State.setLine_tick (st : State) (s : Nat) (v : Bool) : (st.setLine s v).tick = st.tick := rfl

@[simp] theorem State.setReqQ_cfg (st : State) (s v : Nat) : (st.setReqQ s v).cfg = st.cfg := rfl
@[simp] theorem State.setReqQ_ip (st : State) (s v : Nat) : (st.setReqQ s v).ip = st.ip := rfl
@[simp] theorem State.setReqQ_prio (st : State) (s v : Nat) : (st.setReqQ s v).prio = st.prio := rfl
@[simp] theorem State.setReqQ_ie (st : State) (s v : Nat) : (st.setReqQ s v).ie = st.ie := rfl
@[simp] theorem State.setReqQ_thr (st : State) (s v : Nat) : (st.setReqQ s v).thr = st.thr := rfl
@[simp] theorem State.setReqQ_busy (st : State) (s v : Nat) : (st.setReqQ s v).busy = st.busy := rfl
@[simp] theorem State.setReqQ_cnt (st : State) (s v : Nat) : (st.setReqQ s v).cnt = st.cnt := rfl
@[simp] theorem State.setReqQ_line (st : State) (s v : Nat) : (st.setReqQ s v).line = st.line := rfl
@[simp] theorem State.setReqQ_reqQ (st : State) (s v : Nat) : (st.setReqQ s v).reqQ = set1 st.reqQ s v := rfl
@[simp] theorem State.setReqQ_inQ (st : State) (s v : Nat) : (st.setReqQ s v).inQ = st.inQ := rfl
@[simp] theorem State.setReqQ_outQ (st : State) (s v : Nat) : (st.setReqQ s v).outQ = st.outQ := rfl
@[simp] theorem State.setReqQ_rcvd (st : State) (s v : Nat) : (st.setReqQ s v).rcvd = st.rcvd := rfl
@[simp] theorem State.setReqQ_notif (st : State) (s v : Nat) : (st.setReqQ s v).notif = st.notif := rfl
@[simp] theorem State.setReqQ_seen0 (st : State) (s v : Nat) : (st.setReqQ s v).seen0 = st.seen0 := rfl
@[simp] theorem State.setReqQ_seen1 (st : State) (s v : Nat) : (st.setReqQ s v).seen1 = st.seen1 := rfl
@[simp] theorem State.setReqQ_agenda (st : State) (s v : Nat) : (st.setReqQ s v).agenda = st.agenda := rfl
@[simp] theorem State.setReqQ_tick (st : State) (s v : Nat) : (st.setReqQ s v).tick = st.tick := rfl

@[simp] theorem State.setInQ_cfg (st : State) (r : Nat) (q : List Msg) : (st.setInQ r q).cfg = st.cfg := rfl
@[simp] theorem State.setInQ_ip (st : State) (r : Nat) (q : List Msg) : (st.setInQ r q).ip = st.ip := rfl
@[simp] theorem State.setInQ_prio (st : State) (r : Nat) (q : List Msg) : (st.setInQ r q).prio = st.prio := rfl
@[simp] theorem State.setInQ_ie (st : State) (r : Nat) (q : List Msg) : (st.setInQ r q).ie = st.ie := rfl
@[simp] theorem State.setInQ_thr (st : State) (r : Nat) (q : List Msg) : (st.setInQ r q).thr = st.thr := rfl
@[simp] theorem State.setInQ_busy (st : State) (r : Nat) (q : List Msg) : (st.setInQ r q).busy = st.busy := rfl
@[simp] theorem State.setInQ_cnt (st : State) (r : Nat) (q : List Msg) : (st.setInQ r q).cnt = st.cnt := rfl
@[simp] theorem State.setInQ_line (st : State) (r : Nat) (q : List Msg) : (st.setInQ r q).line = st.line := rfl
@[simp] theorem State.setInQ_reqQ (st : State) (r : Nat) (q : List Msg) : (st.setInQ r q).reqQ = st.reqQ := rfl
@[simp] theorem State.setInQ_inQ (st : State) (r : Nat) (q : List Msg) : (st.setInQ r q).inQ = st.inQ.set r q := rfl
@[simp] theorem State.setInQ_outQ (st : State) (r : Nat) (q : List Msg) : (st.setInQ r q).outQ = st.outQ := rfl
@[simp] theorem State.setInQ_rcvd (st : State) (r : Nat) (q : List Msg) : (st.setInQ r q).rcvd = st.rcvd := rfl
@[simp] theorem State.setInQ_notif (st : State) (r : Nat) (q : List Msg) : (st.setInQ r q).notif = st.notif := rfl
@[simp] theorem State.setInQ_seen0 (st : State) (r : Nat) (q : List Msg) : (st.setInQ r q).seen0 = st.seen0 := rfl
@[simp] theorem State.setInQ_seen1 (st : State) (r : Nat) (q : List Msg) : (st.setInQ r q).seen1 = st.seen1 := rfl
@[simp] theorem State.setInQ_agenda (st : State) (r : Nat) (q : List Msg) : (st.setInQ r q).agenda = st.agenda := rfl
@[simp] theorem State.setInQ_tick (st : State) (r : Nat) (q : List Msg) : (st.setInQ r q).tick = st.tick := rfl

@[simp] theorem State.setOutQ_cfg (st : State) (r : Nat) (q : List Resp) : (st.setOutQ r q).cfg = st.cfg := rfl
@[simp] theorem State.setOutQ_ip (st : State) (r : Nat) (q : List Resp) : (st.setOutQ r q).ip = st.ip := rfl
@[simp] theorem State.setOutQ_prio (st : State) (r : Nat) (q : List Resp) : (st.setOutQ r q).prio = st.prio := rfl
@[simp] theorem State.setOutQ_ie (st : State) (r : Nat) (q : List Resp) : (st.setOutQ r q).ie = st.ie := rfl
@[simp] theorem State.setOutQ_thr (st : State) (r : Nat) (q : List Resp) : (st.setOutQ r q).thr = st.thr := rfl
@[simp] theorem State.setOutQ_busy (st : State) (r : Nat) (q : List Resp) : (st.setOutQ r q).busy = st.busy := rfl
@[simp] theorem State.setOutQ_cnt (st : State) (r : Nat) (q : List Resp) : (st.setOutQ r q).cnt = st.cnt := rfl
@[simp] theorem State.setOutQ_line (st : State) (r : Nat) (q : List Resp) : (st.setOutQ r q).line = st.line := rfl
@[simp] theorem State.setOutQ_reqQ (st : State) (r : Nat) (q : List Resp) : (st.setOutQ r q).reqQ = st.reqQ := rfl
@[simp] theorem State.setOutQ_inQ (st : State) (r : Nat) (q : List Resp) : (st.setOutQ r q).inQ = st.inQ := rfl
@[simp] theorem State.setOutQ_outQ (st : State) (r : Nat) (q : List Resp) : (st.setOutQ r q).outQ = st.outQ.set r q := rfl
@[simp] theorem State.setOutQ_rcvd (st : State) (r : Nat) (q : List Resp) : (st.setOutQ r q).rcvd = st.rcvd := rfl
@[simp] theorem State.setOutQ_notif (st : State) (r : Nat) (q : List Resp) : (st.setOutQ r q).notif = st.notif := rfl
@[simp] theorem State.setOutQ_seen0 (st : State) (r : Nat) (q : List Resp) : (st.setOutQ r q).seen0 = st.seen0 := rfl
@[simp] theorem State.setOutQ_seen1 (st : State) (r : Nat) (q : List Resp) : (st.setOutQ r q).seen1 = st.seen1 := rfl
@[simp] theorem State.setOutQ_agenda (st : State) (r : Nat) (q : List Resp) : (st.setOutQ r q).agenda = st.agenda := rfl
@[simp] theorem State.setOutQ_tick (st : State) (r : Nat) (q : List Resp) : (st.setOutQ r q).tick = st.tick := rfl

@[simp] theorem State.setRcvd_cfg (st : State) (r : Nat) (q : List Resp) : (st.setRcvd r q).cfg = st.cfg := rfl
@[simp] theorem State.setRcvd_ip (st : State) (r : Nat) (q : List Resp) : (st.setRcvd r q).ip = st.ip := rfl
@[simp] theorem State.setRcvd_prio (st : State) (r : Nat) (q : List Resp) : (st.setRcvd r q).prio = st.prio := rfl
@[simp] theorem State.setRcvd_ie (st : State) (r : Nat) (q : List Resp) : (st.setRcvd r q).ie = st.ie := rfl
@[simp] theorem State.setRcvd_thr (st : State) (r : Nat) (q : List Resp) : (st.setRcvd r q).thr = st.thr := rfl
@[simp] theorem State.setRcvd_busy (st : State) (r : Nat) (q : List Resp) : (st.setRcvd r q).busy = st.busy := rfl
@[simp] theorem State.setRcvd_cnt (st : State) (r : Nat) (q : List Resp) : (st.setRcvd r q).cnt = st.cnt := rfl
@[simp] theorem State.setRcvd_line (st : State) (r : Nat) (q : List Resp) : (st.setRcvd r q).line = st.line := rfl
@[simp] theorem State.setRcvd_reqQ (st : State) (r : Nat) (q : List Resp) : (st.setRcvd r q).reqQ = st.reqQ := rfl
@[simp] theorem State.setRcvd_inQ (st : State) (r : Nat) (q : List Resp) : (st.setRcvd r q).inQ = st.inQ := rfl
@[simp] theorem State.setRcvd_outQ (st : State) (r : Nat) (q : List Resp) : (st.setRcvd r q).outQ = st.outQ := rfl
@[simp] theorem State.setRcvd_rcvd (st : State) (r : Nat) (q : List Resp) : (st.setRcvd r q).rcvd = st.rcvd.set r q := rfl
@[simp] theorem State.setRcvd_notif (st : State) (r : Nat) (q : List Resp) : (st.setRcvd r q).notif = st.notif := rfl
@[simp] theorem State.setRcvd_seen0 (st : State) (r : Nat) (q : List Resp) : (st.setRcvd r q).seen0 = st.seen0 := rfl
@[simp] theorem State.setRcvd_seen1 (st : State) (r : Nat) (q : List Resp) : (st.setRcvd r q).seen1 = st.seen1 := rfl
@[simp] theorem State.setRcvd_agenda (st : State) (r : Nat) (q : List Resp) : (st.setRcvd r q).agenda = st.agenda := rfl
@[simp] theorem State.setRcvd_tick (st : State) (r : Nat) (q : List Resp) : (st.setRcvd r q).tick = st.tick := rfl

@[simp] theorem State.setNotif_cfg (st : State) (t : Nat) (v : Bool) : (st.setNotif t v).cfg = st.cfg := rfl
@[simp] theorem State.setNotif_ip (st : State) (t : Nat) (v : Bool) : (st.setNotif t v).ip = st.ip := rfl
@[simp] theorem State.setNotif_prio (st : State) (t : Nat) (v : Bool) : (st.setNotif t v).prio = st.prio := rfl
@[simp] theorem State.setNotif_ie (st : State) (t : Nat) (v : Bool) : (st.setNotif t v).ie = st.ie := rfl
@[simp] theorem State.setNotif_thr (st : State) (t : Nat) (v : Bool) : (st.setNotif t v).thr = st.thr := rfl
@[simp] theorem State.setNotif_busy (st : State) (t : Nat) (v : Bool) : (st.setNotif t v).busy = st.busy := rfl
@[simp] theorem State.setNotif_cnt (st : State) (t : Nat) (v : Bool) : (st.setNotif t v).cnt = st.cnt := rfl
@[simp] theorem State.setNotif_line (st : State) (t : Nat) (v : Bool) : (st.setNotif t v).line = st.line := rfl
@[simp] theorem State.setNotif_reqQ (st : State) (t : Nat) (v : Bool) : (st.setNotif t v).reqQ = st.reqQ := rfl
@[simp] theorem State.setNotif_inQ (st : State) (t : Nat) (v : Bool) : (st.setNotif t v).inQ = st.inQ := rfl
@[simp] theorem State.setNotif_outQ (st : State) (t : Nat) (v : Bool) : (st.setNotif t v).outQ = st.outQ := rfl
@[simp] theorem State.setNotif_rcvd (st : State) (t : Nat) (v : Bool) : (st.setNotif t v).rcvd = st.rcvd := rfl
@[simp] theorem State.setNotif_notif (st : State) (t : Nat) (v : Bool) : (st.setNotif t v).notif = st.notif.set t v := rfl
@[simp] theorem State.setNotif_seen0 (st : State) (t : Nat) (v : Bool) : (st.setNotif t v).seen0 = st.seen0 := rfl
@[simp] theorem State.setNotif_seen1 (st : State) (t : Nat) (v : Bool) : (st.setNotif t v).seen1 = st.seen1 := rfl
@[simp] theorem State.setNotif_agenda (st : State) (t : Nat) (v : Bool) : (st.setNotif t v).agenda = st.agenda := rfl
@[simp] theorem State.setNotif_tick (st : State) (t : Nat) (v : Bool) : (st.setNotif t v).tick = st.tick := rfl

@[simp] theorem State.settle_cfg (st : State) : st.settle.cfg = st.cfg := rfl
@[simp] theorem State.settle_ip (st : State) : st.settle.ip = st.ip := rfl
@[simp] theorem State.settle_prio (st : State) : st.settle.prio = st.prio := rfl
@[simp] theorem State.settle_ie (st : State) : st.settle.ie = st.ie := rfl
@[simp] theorem State.settle_thr (st : State) : st.settle.thr = st.thr := rfl
@[simp] theorem State.settle_busy (st : State) : st.settle.busy = st.busy := rfl
@[simp] theorem State.settle_cnt (st : State) : st.settle.cnt = st.cnt := rfl
@[simp] theorem State.settle_line (st : State) : st.settle.line = st.line := rfl
@[simp] theorem State.settle_reqQ (st : State) : st.settle.reqQ = st.reqQ := rfl
@[simp] theorem State.settle_inQ (st : State) : st.settle.inQ = st.inQ := rfl
@[simp] theorem State.settle_outQ (st : State) : st.settle.outQ = st.outQ := rfl
@[simp] theorem State.settle_rcvd (st : State) : st.settle.rcvd = st.rcvd := rfl
@[simp] theorem State.settle_agenda (st : State) : st.settle.agenda = st.agenda := rfl
@[simp] theorem State.settle_tick (st : State) : st.settle.tick = st.tick := rfl

theorem State.settle_seen0 (st : State) : st.settle.seen0 = st.seen0.mapIdx fun t b => b || !st.eip t := rfl

theorem State.settle_seen1 (st : State) : st.settle.seen1 = st.seen1.mapIdx fun t b => b || st.eip t := rfl

theorem State.settle_notif (st : State) : st.settle.notif =
    if st.cfg.notifyModel = .wire then st.notif.mapIdx fun t _ => st.eip t else st.notif := rfl

@[simp] theorem State.enqueueIn_cfg (st : State) (r : Nat) (m : Msg) : (st.enqueueIn r m).cfg = st.cfg := rfl
@[simp] theorem State.enqueueIn_ip (st : State) (r : Nat) (m : Msg) : (st.enqueueIn r m).ip = st.ip := rfl
@[simp] theorem State.enqueueIn_prio (st : State) (r : Nat) (m : Msg) : (st.enqueueIn r m).prio = st.prio := rfl
@[simp] theorem State.enqueueIn_ie (st : State) (r : Nat) (m : Msg) : (st.enqueueIn r m).ie = st.ie := rfl
@[simp] theorem State.enqueueIn_thr (st : State) (r : Nat) (m : Msg) : (st.enqueueIn r m).thr = st.thr := rfl
@[simp] theorem State.enqueueIn_busy (st : State) (r : Nat) (m : Msg) : (st.enqueueIn r m).busy = st.busy := rfl
@[simp] theorem State.enqueueIn_cnt (st : State) (r : Nat) (m : Msg) : (st.enqueueIn r m).cnt = st.cnt := rfl
@[simp] theorem State.enqueueIn_line (st : State) (r : Nat) (m : Msg) : (st.enqueueIn r m).line = st.line := rfl
@[simp] theorem State.enqueueIn_reqQ (st : State) (r : Nat) (m : Msg) : (st.enqueueIn r m).reqQ = st.reqQ := rfl
@[simp] theorem State.enqueueIn_inQ (st : State) (r : Nat) (m : Msg) : (st.enqueueIn r m).inQ = st.inQ.set r (st.inQOf r ++ [m]) := rfl
@[simp] theorem State.enqueueIn_outQ (st : State) (r : Nat) (m : Msg) : (st.enqueueIn r m).outQ = st.outQ := rfl
@[simp] theorem State.enqueueIn_rcvd (st : State) (r : Nat) (m : Msg) : (st.enqueueIn r m).rcvd = st.rcvd := rfl
@[simp] theorem State.enqueueIn_notif (st : State) (r : Nat) (m : Msg) : (st.enqueueIn r m).notif = st.notif := rfl
@[simp] theorem State.enqueueIn_seen0 (st : State) (r : Nat) (m : Msg) : (st.enqueueIn r m).seen0 = st.seen0 := rfl
@[simp] theorem State.enqueueIn_seen1 (st : State) (r : Nat) (m : Msg) : (st.enqueueIn r m).seen1 = st.seen1 := rfl
@[simp] theorem State.enqueueIn_agenda (st : State) (r : Nat) (m : Msg) : (st.enqueueIn r m).agenda = st.agenda := rfl
@[simp] theorem State.enqueueIn_tick (st : State) (r : Nat) (m : Msg) : (st.enqueueIn r m).tick = st.tick := rfl

@[simp] theorem State.dequeueIn_cfg (st : State) (r : Nat) : (st.dequeueIn r).cfg = st.cfg := rfl
@[simp] theorem State.dequeueIn_ip (st : State) (r : Nat) : (st.dequeueIn r).ip = st.ip := rfl
@[simp] theorem State.dequeueIn_prio (st : State) (r : Nat) : (st.dequeueIn r).prio = st.prio := rfl
@[simp] theorem State.dequeueIn_ie (st : State) (r : Nat) : (st.dequeueIn r).ie = st.ie := rfl
@[simp] theorem State.dequeueIn_thr (st : State) (r : Nat) : (st.dequeueIn r).thr = st.thr := rfl
@[simp] theorem State.dequeueIn_busy (st : State) (r : Nat) : (st.dequeueIn r).busy = st.busy := rfl
@[simp] theorem State.dequeueIn_cnt (st : State) (r : Nat) : (st.dequeueIn r).cnt = st.cnt := rfl
@[simp] theorem State.dequeueIn_line (st : State) (r : Nat) : (st.dequeueIn r).line = st.line := rfl
@[simp] theorem State.dequeueIn_reqQ (st : State) (r : Nat) : (st.dequeueIn r).reqQ = st.reqQ := rfl
@[simp] theorem State.dequeueIn_inQ (st : State) (r : Nat) : (st.dequeueIn r).inQ = st.inQ.set r (st.inQOf r).tail := rfl
@[simp] theorem State.dequeueIn_outQ (st : State) (r : Nat) : (st.dequeueIn r).outQ = st.outQ := rfl
@[simp] theorem State.dequeueIn_rcvd (st : State) (r : Nat) : (st.dequeueIn r).rcvd = st.rcvd := rfl
@[simp] theorem State.dequeueIn_notif (st : State) (r : Nat) : (st.dequeueIn r).notif = st.notif := rfl
@[simp] theorem State.dequeueIn_seen0 (st : State) (r : Nat) : (st.dequeueIn r).seen0 = st.seen0 := rfl
@[simp] theorem State.dequeueIn_seen1 (st : State) (r : Nat) : (st.dequeueIn r).seen1 = st.seen1 := rfl
@[simp] theorem State.dequeueIn_agenda (st : State) (r : Nat) : (st.dequeueIn r).agenda = st.agenda := rfl
@[simp] theorem State.dequeueIn_tick (st : State) (r : Nat) : (st.dequeueIn r).tick = st.tick := rfl

@[simp] theorem State.enqueueOut_cfg (st : State) (r : Nat) (m : Resp) : (st.enqueueOut r m).cfg = st.cfg := rfl
@[simp] theorem State.enqueueOut_ip (st : State) (r : Nat) (m : Resp) : (st.enqueueOut r m).ip = st.ip := rfl
@[simp] theorem State.enqueueOut_prio (st : State) (r : Nat) (m : Resp) : (st.enqueueOut r m).prio = st.prio := rfl
@[simp] theorem State.enqueueOut_ie (st : State) (r : Nat) (m : Resp) : (st.enqueueOut r m).ie = st.ie := rfl
@[simp] theorem State.enqueueOut_thr (st : State) (r : Nat) (m : Resp) : (st.enqueueOut r m).thr = st.thr := rfl
@[simp] theorem State.enqueueOut_busy (st : State) (r : Nat) (m : Resp) : (st.enqueueOut r m).busy = st.busy := rfl
@[simp] theorem State.enqueueOut_cnt (st : State) (r : Nat) (m : Resp) : (st.enqueueOut r m).cnt = st.cnt := rfl
@[simp] theorem State.enqueueOut_line (st : State) (r : Nat) (m : Resp) : (st.enqueueOut r m).line = st.line := rfl
@[simp] theorem State.enqueueOut_reqQ (st : State) (r : Nat) (m : Resp) : (st.enqueueOut r m).reqQ = st.reqQ := rfl
@[simp] theorem State.enqueueOut_inQ (st : State) (r : Nat) (m : Resp) : (st.enqueueOut r m).inQ = st.inQ := rfl
@[simp] theorem State.enqueueOut_outQ (st : State) (r : Nat) (m : Resp) : (st.enqueueOut r m).outQ = st.outQ.set r (st.outQOf r ++ [m]) := rfl
@[simp] theorem State.enqueueOut_rcvd (st : State) (r : Nat) (m : Resp) : (st.enqueueOut r m).rcvd = st.rcvd := rfl
@[simp] theorem State.enqueueOut_notif (st : State) (r : Nat) (m : Resp) : (st.enqueueOut r m).notif = st.notif := rfl
@[simp] theorem State.enqueueOut_seen0 (st : State) (r : Nat) (m : Resp) : (st.enqueueOut r m).seen0 = st.seen0 := rfl
@[simp] theorem State.enqueueOut_seen1 (st : State) (r : Nat) (m : Resp) : (st.enqueueOut r m).seen1 = st.seen1 := rfl
@[simp] theorem State.enqueueOut_agenda (st : State) (r : Nat) (m : Resp) : (st.enqueueOut r m).agenda = st.agenda := rfl
@[simp] theorem State.enqueueOut_tick (st : State) (r : Nat) (m : Resp) : (st.enqueueOut r m).tick = st.tick := rfl

@[simp] theorem State.deliver_cfg (st : State) (r : Nat) : (st.deliver r).cfg = st.cfg := rfl
@[simp] theorem State.deliver_ip (st : State) (r : Nat) : (st.deliver r).ip = st.ip := rfl
@[simp] theorem State.deliver_prio (st : State) (r : Nat) : (st.deliver r).prio = st.prio := rfl
@[simp] theorem State.deliver_ie (st : State) (r : Nat) : (st.deliver r).ie = st.ie := rfl
@[simp] theorem State.deliver_thr (st : State) (r : Nat) : (st.deliver r).thr = st.thr := rfl
@[simp] theorem State.deliver_busy (st : State) (r : Nat) : (st.deliver r).busy = st.busy := rfl
@[simp] theorem State.deliver_cnt (st : State) (r : Nat) : (st.deliver r).cnt = st.cnt := rfl
@[simp] theorem State.deliver_line (st : State) (r : Nat) : (st.deliver r).line = st.line := rfl
@[simp] theorem State.deliver_reqQ (st : State) (r : Nat) : (st.deliver r).reqQ = st.reqQ := rfl
@[simp] theorem State.deliver_inQ (st : State) (r : Nat) : (st.deliver r).inQ = st.inQ := rfl
@[simp] theorem State.deliver_outQ (st : State) (r : Nat) : (st.deliver r).outQ = st.outQ.set r (st.outQOf r).tail := rfl
@[simp] theorem State.deliver_rcvd (st : State) (r : Nat) : (st.deliver r).rcvd = st.rcvd.set r (st.rcvdOf r ++ (st.outQOf r).head?.toList) := rfl
@[simp] theorem State.deliver_notif (st : State) (r : Nat) : (st.deliver r).notif = st.notif := rfl
@[simp] theorem State.deliver_seen0 (st : State) (r : Nat) : (st.deliver r).seen0 = st.seen0 := rfl
@[simp] theorem State.deliver_seen1 (st : State) (r : Nat) : (st.deliver r).seen1 = st.seen1 := rfl
@[simp] theorem State.deliver_agenda (st : State) (r : Nat) : (st.deliver r).agenda = st.agenda := rfl
@[simp] theorem State.deliver_tick (st : State) (r : Nat) : (st.deliver r).tick = st.tick := rfl

@[simp] theorem State.ofInit_cfg (c : Cfg) (x : InitState) : (State.ofInit c x).cfg = c := rfl
@[simp] theorem State.ofInit_ip (c : Cfg) (x : InitState) : (State.ofInit c x).ip = x.ip := rfl
@[simp] theorem State.ofInit_prio (c : Cfg) (x : InitState) : (State.ofInit c x).prio = x.prio := rfl
@[simp] theorem State.ofInit_ie (c : Cfg) (x : InitState) : (State.ofInit c x).ie = x.ie := rfl
@[simp] theorem State.ofInit_thr (c : Cfg) (x : InitState) : (State.ofInit c x).thr = x.thr := rfl
@[simp] theorem State.ofInit_busy (c : Cfg) (x : InitState) : (State.ofInit c x).busy = x.busy := rfl
@[simp] theorem State.ofInit_cnt (c : Cfg) (x : InitState) : (State.ofInit c x).cnt = x.cnt := rfl
@[simp] theorem State.ofInit_line (c : Cfg) (x : InitState) : (State.ofInit c x).line = x.line := rfl
@[simp] theorem State.ofInit_reqQ (c : Cfg) (x : InitState) : (State.ofInit c x).reqQ = x.reqQ := rfl
@[simp] theorem State.ofInit_inQ (c : Cfg) (x : InitState) : (State.ofInit c x).inQ = x.inQ := rfl
@[simp] theorem State.ofInit_outQ (c : Cfg) (x : InitState) : (State.ofInit c x).outQ = x.outQ := rfl
@[simp] theorem State.ofInit_rcvd (c : Cfg) (x : InitState) : (State.ofInit c x).rcvd = (List.range c.reqs).map fun _ => [] := rfl
@[simp] theorem State.ofInit_notif (c : Cfg) (x : InitState) : (State.ofInit c x).notif = x.notif := rfl
@[simp] theorem State.ofInit_seen0 (c : Cfg) (x : InitState) : (State.ofInit c x).seen0 = x.seen0 := rfl
@[simp] theorem State.ofInit_seen1 (c : Cfg) (x : InitState) : (State.ofInit c x).seen1 = x.seen1 := rfl
@[simp] theorem State.ofInit_agenda (c : Cfg) (x : InitState) : (State.ofInit c x).agenda = [] := rfl
@[simp] theorem State.ofInit_tick (c : Cfg) (x : InitState) : (State.ofInit c x).tick = 0 := rfl

end Sys2Proof.Machine
end

