-- ==== Sys2Proof/Laws/Ops.lean ====
section
/-! SUPPORT. What each shared operation can do, said once: reading after writing, membership in the index lists, what
`settle`, `fire` and `onMessage` answer, and what the derived functions depend on. Cite these; do not unfold. -/

namespace Sys2Proof.Machine

/-! Lists numbered from 1 and from 0. -/

@[simp] theorem set1_length {α : Type} (l : List α) (s : Nat) (v : α) : (set1 l s v).length = l.length := by
  cases s <;> simp [set1]

theorem at1_set1 {α : Type} (d : α) (l : List α) (s s' : Nat) (v : α) :
    at1 d (set1 l s v) s' = if s' = s ∧ 1 ≤ s ∧ s ≤ l.length then v else at1 d l s' := by
  cases s with
  | zero => simp [set1]
  | succ k =>
    cases s' with
    | zero => simp [at1]
    | succ j =>
      simp only [at1, set1, List.getD_eq_getElem?_getD, List.getElem?_set, Nat.add_right_cancel_iff]
      by_cases hjk : j = k
      · subst hjk
        by_cases hl : j < l.length
        · simp [hl, Nat.succ_le_of_lt hl]
        · simp [hl, Nat.not_le_of_gt (Nat.lt_succ_of_le (Nat.le_of_not_lt hl))]
      · have hkj : ¬ k = j := fun h => hjk h.symm
        simp [hjk, hkj]

theorem at1_set1_self {α : Type} (d : α) (l : List α) (s : Nat) (v : α) (h1 : 1 ≤ s) (h2 : s ≤ l.length) :
    at1 d (set1 l s v) s = v := by
  simp [at1_set1, h1, h2]

theorem at1_set1_ne {α : Type} (d : α) (l : List α) (s s' : Nat) (v : α) (h : s' ≠ s) :
    at1 d (set1 l s v) s' = at1 d l s' := by
  simp [at1_set1, h]

theorem getD_set {α : Type} (d : α) (l : List α) (t t' : Nat) (v : α) :
    (l.set t v).getD t' d = if t' = t ∧ t < l.length then v else l.getD t' d := by
  simp only [List.getD_eq_getElem?_getD, List.getElem?_set]
  by_cases htt : t = t'
  · subst htt
    by_cases hl : t < l.length
    · simp [hl]
    · simp [hl]
  · have : ¬ t' = t := fun h => htt h.symm
    simp [htt, this]

theorem getD_set_self {α : Type} (d : α) (l : List α) (t : Nat) (v : α) (h : t < l.length) :
    (l.set t v).getD t d = v := by
  rw [getD_set, if_pos ⟨rfl, h⟩]

theorem getD_set_ne {α : Type} (d : α) (l : List α) (t t' : Nat) (v : α) (h : t' ≠ t) :
    (l.set t v).getD t' d = l.getD t' d := by
  rw [getD_set, if_neg fun hh => h hh.1]

/-- An element that holds `v` already is not changed by writing `v`. -/
theorem set1_same {α : Type} (d : α) (l : List α) (s : Nat) (h : s ≤ l.length) : set1 l s (at1 d l s) = l := by
  cases s with
  | zero => rfl
  | succ k =>
    apply List.ext_getElem?
    intro j
    simp only [at1, set1, List.getElem?_set, List.getD_eq_getElem?_getD]
    by_cases hkj : k = j
    · subst hkj
      simp [Nat.lt_of_succ_le h]
    · simp [hkj]

theorem set_getD_same {α : Type} (d : α) (l : List α) (t : Nat) : l.set t (l.getD t d) = l := by
  apply List.ext_getElem?
  intro j
  simp only [List.getElem?_set, List.getD_eq_getElem?_getD]
  by_cases htj : t = j
  · subst htj
    by_cases hl : t < l.length <;> simp [hl]
  · simp [htj]

/-! Indices. -/

theorem isSource_iff (c : Cfg) (s : Nat) : isSource c s = true ↔ 1 ≤ s ∧ s ≤ numSources c := by simp [isSource]

theorem isTarget_iff (c : Cfg) (t : Nat) : isTarget c t = true ↔ t < numTargets c := by simp [isTarget]

theorem isReq_iff (c : Cfg) (r : Nat) : isReq c r = true ↔ r < c.reqs := by simp [isReq]

theorem mem_sourceIds (c : Cfg) (s : Nat) : s ∈ sourceIds c ↔ isSource c s = true := by
  rw [isSource_iff]
  constructor
  · intro h
    obtain ⟨k, hk, rfl⟩ := List.mem_map.1 h
    exact ⟨Nat.succ_le_succ (Nat.zero_le k), List.mem_range.1 hk⟩
  · rintro ⟨h1, h2⟩
    refine List.mem_map.2 ⟨s - 1, List.mem_range.2 (by omega), by omega⟩

theorem sourceCfg?_isSome (c : Cfg) (s : Nat) : (sourceCfg? c s).isSome = true ↔ isSource c s = true := by
  rw [isSource_iff]
  cases s with
  | zero => simp [sourceCfg?]
  | succ k => simp [sourceCfg?, numSources]

/-- A source whose gateway has a kind is a source. -/
theorem isSource_of_kind (c : Cfg) (s : Nat)
    (h : isLevel c s = true ∨ isEdgeIgnore c s = true ∨ isEdgeCount c s = true) : isSource c s = true := by
  rw [← sourceCfg?_isSome]
  cases hc : sourceCfg? c s with
  | some x => rfl
  | none => simp [isLevel, isEdgeIgnore, isEdgeCount, hc] at h

/-- A gateway has one kind. -/
theorem kind_cases (c : Cfg) (s : Nat) (h : isSource c s = true) :
    (isLevel c s = true ∧ isEdgeIgnore c s = false ∧ isEdgeCount c s = false)
      ∨ (isLevel c s = false ∧ isEdgeIgnore c s = true ∧ isEdgeCount c s = false)
      ∨ (isLevel c s = false ∧ isEdgeIgnore c s = false ∧ isEdgeCount c s = true) := by
  rw [← sourceCfg?_isSome] at h
  cases hc : sourceCfg? c s with
  | none => simp [hc] at h
  | some x =>
    obtain ⟨gw, p, v⟩ := x
    cases gw <;> simp [isLevel, isEdgeIgnore, isEdgeCount, hc]

/-! Well-formed states. -/

/-- The check on data says what the invariant says beside the configuration's own well-formedness. -/
theorem inv_iff_legal (st : State) : st.Inv ↔ st.cfg.wf = true ∧ st.legal = true := by
  simp only [State.legal, Bool.and_eq_true, decide_eq_true_eq]
  constructor
  · intro h
    obtain ⟨h1, h2, h3, h4, h5, h6, h7, h8, h9, h10, h11, h12, h13, h14, h15⟩ := h.shape
    exact ⟨h.cfgWf, ⟨⟨⟨⟨⟨⟨⟨⟨⟨⟨⟨⟨⟨⟨h1, h2, h3, h5, h6, h7, h8, h9, h10, h11, h12, h13, h14, h15⟩, h.prioLegal⟩, h.cntBound⟩,
      h.reqCounted⟩, h.cntElsewhere⟩, h.lineElsewhere⟩, h4⟩, h.ieLegal⟩, h.thrLegal⟩, h.seen1⟩, h.seen0⟩, h.wire⟩, h.inQ⟩,
      h.outQ⟩⟩
  · rintro ⟨hc, ⟨⟨⟨⟨⟨⟨⟨⟨⟨⟨⟨⟨⟨⟨h1, h2, h3, h5, h6, h7, h8, h9, h10, h11, h12, h13, h14, h15⟩, hp⟩, hb⟩, hq⟩, hn⟩, hl⟩, h4⟩, he⟩,
      ht⟩, hs1⟩, hs0⟩, hw⟩, hi⟩, ho⟩⟩
    exact ⟨hc, ⟨h1, h2, h3, h4, h5, h6, h7, h8, h9, h10, h11, h12, h13, h14, h15⟩, hp, ht, he, hb, hq, hn, hl, hs1, hs0, hw,
      hi, ho⟩

/-! The derived functions depend on the core state alone. -/

theorem eip_congr {st u : State} (t : Nat) (hc : u.cfg = st.cfg) (hp : ∀ s, u.ipOf s = st.ipOf s)
    (he : ∀ s, u.ieOf t s = st.ieOf t s) (hr : ∀ s, u.prioOf s = st.prioOf s) (ht : u.thrOf t = st.thrOf t) :
    u.eip t = st.eip t := by
  have hf : (fun s => u.active t s && decide (u.prioOf s > u.thrOf t))
      = fun s => st.active t s && decide (st.prioOf s > st.thrOf t) := by
    funext s
    simp [State.active, hp, he, hr, ht]
  simp [State.eip, hc, hf]

theorem best_congr {st u : State} (t : Nat) (hc : u.cfg = st.cfg) (hp : ∀ s, u.ipOf s = st.ipOf s)
    (he : ∀ s, u.ieOf t s = st.ieOf t s) (hr : ∀ s, u.prioOf s = st.prioOf s) : u.best t = st.best t := by
  have hf : u.bestStep t = st.bestStep t := by
    funext b s
    simp [State.bestStep, State.elig, State.active, State.better, hp, he, hr]
  simp [State.best, hc, hf]

/-- `EIP` is the same where the fields it reads are the same. -/
theorem eip_of_fields {st u : State} (hc : u.cfg = st.cfg) (hp : u.ip = st.ip) (he : u.ie = st.ie)
    (hr : u.prio = st.prio) (ht : u.thr = st.thr) (t : Nat) : u.eip t = st.eip t :=
  eip_congr t hc (by simp [State.ipOf, hp]) (by simp [State.ieOf, State.ieRow, he]) (by simp [State.prioOf, hr])
    (by simp [State.thrOf, ht])

/-- `best` is the same where the fields it reads are the same. -/
theorem best_of_fields {st u : State} (hc : u.cfg = st.cfg) (hp : u.ip = st.ip) (he : u.ie = st.ie)
    (hr : u.prio = st.prio) (t : Nat) : u.best t = st.best t :=
  best_congr t hc (by simp [State.ipOf, hp]) (by simp [State.ieOf, State.ieRow, he]) (by simp [State.prioOf, hr])

@[simp] theorem settle_eip (st : State) (t : Nat) : st.settle.eip t = st.eip t := rfl

@[simp] theorem settle_best (st : State) (t : Nat) : st.settle.best t = st.best t := rfl

/-! What ends an action. -/

theorem getD_mapIdx {α : Type} (f : Nat → α → α) (l : List α) (t : Nat) (d : α) (h : t < l.length) :
    (l.mapIdx f).getD t d = f t (l.getD t d) := by
  simp [List.getD_eq_getElem?_getD, h]

/-- Settling a state whose history and notifications already follow `EIP` changes nothing. -/
theorem settle_eq_self {st : State}
    (h1 : ∀ t, t < st.seen1.length → st.eip t = true → st.seen1Of t = true)
    (h0 : ∀ t, t < st.seen0.length → st.eip t = false → st.seen0Of t = true)
    (hw : st.cfg.notifyModel = .wire → ∀ t, t < st.notif.length → st.notifOf t = st.eip t) : st.settle = st := by
  have e1 : st.settle.seen1 = st.seen1 := by
    rw [State.settle_seen1]
    apply List.ext_getElem?
    intro t
    rw [List.getElem?_mapIdx]
    by_cases ht : t < st.seen1.length
    · have := h1 t ht
      simp only [State.seen1Of, List.getD_eq_getElem?_getD, List.getElem?_eq_getElem ht, Option.getD_some] at this
      cases he : st.eip t <;> simp_all
    · simp [List.getElem?_eq_none (Nat.le_of_not_lt ht)]
  have e0 : st.settle.seen0 = st.seen0 := by
    rw [State.settle_seen0]
    apply List.ext_getElem?
    intro t
    rw [List.getElem?_mapIdx]
    by_cases ht : t < st.seen0.length
    · have := h0 t ht
      simp only [State.seen0Of, List.getD_eq_getElem?_getD, List.getElem?_eq_getElem ht, Option.getD_some] at this
      cases he : st.eip t <;> simp_all
    · simp [List.getElem?_eq_none (Nat.le_of_not_lt ht)]
  have en : st.settle.notif = st.notif := by
    rw [State.settle_notif]
    split
    · rename_i hm
      apply List.ext_getElem?
      intro t
      rw [List.getElem?_mapIdx]
      by_cases ht : t < st.notif.length
      · have := hw hm t ht
        simp only [State.notifOf, List.getD_eq_getElem?_getD, List.getElem?_eq_getElem ht, Option.getD_some] at this
        simp [ht, this]
      · simp [List.getElem?_eq_none (Nat.le_of_not_lt ht)]
    · rfl
  calc st.settle = { st with seen0 := st.settle.seen0, seen1 := st.settle.seen1, notif := st.settle.notif } := rfl
    _ = st := by rw [e0, e1, en]

/-- A well-formed state whose core state, configuration, history and notifications are those of `st` settles to itself. -/
theorem settle_of_core {st u : State} (h : st.Inv) (hc : u.cfg = st.cfg) (hp : u.ip = st.ip) (he : u.ie = st.ie)
    (hr : u.prio = st.prio) (ht : u.thr = st.thr) (hn : u.notif = st.notif) (h0 : u.seen0 = st.seen0)
    (h1 : u.seen1 = st.seen1) : u.settle = u := by
  have heq := eip_of_fields hc hp he hr ht
  apply settle_eq_self
  · intro t hlt hv
    rw [heq] at hv
    rw [h1, h.shape.seen1] at hlt
    simpa [State.seen1Of, h1] using h.seen1 t hlt hv
  · intro t hlt hv
    rw [heq] at hv
    rw [h0, h.shape.seen0] at hlt
    simpa [State.seen0Of, h0] using h.seen0 t hlt hv
  · intro hw t hlt
    rw [hc] at hw
    rw [hn, h.shape.notif] at hlt
    simpa [State.notifOf, hn, heq] using h.wire hw t hlt

/-- What settling makes of the history bits and notifications, read one target at a time (spec/10_state.md R36). -/
theorem settle_reads (st : State) (t : Nat) (h1 : t < st.seen1.length) (h0 : t < st.seen0.length)
    (hn : t < st.notif.length) :
    st.settle.seen1Of t = (st.seen1Of t || st.eip t) ∧ st.settle.seen0Of t = (st.seen0Of t || !st.eip t)
      ∧ st.settle.notifOf t = (if st.cfg.notifyModel = .wire then st.eip t else st.notifOf t) := by
  refine ⟨?_, ?_, ?_⟩
  · simp only [State.seen1Of, State.settle_seen1, getD_mapIdx _ _ _ _ h1]
  · simp only [State.seen0Of, State.settle_seen0, getD_mapIdx _ _ _ _ h0]
  · simp only [State.notifOf, State.settle_notif]
    split
    · simp only [getD_mapIdx _ _ _ _ hn]
    · rfl

/-! How an action answers. -/

/-- If an action answers a next state, it exists, and it fired or waited. -/
theorem fire_next {ok guard : Bool} {eff st u : State} (h : fire ok guard eff st = .next u) :
    ok = true ∧ ((guard = true ∧ u = eff.settle) ∨ (guard = false ∧ u = st)) := by
  unfold fire at h
  cases ok <;> cases guard <;> simp_all

theorem fire_enabled (eff st : State) : fire true true eff st = .next eff.settle := rfl

theorem fire_waits (eff st : State) : fire true false eff st = .next st := rfl

theorem fire_missing (guard : Bool) (eff st : State) : fire false guard eff st = .refused .noSuchAction := rfl

/-- If a message action answers a next state, the message is in range, and it was the head of the queue and was
processed, or it was not and nothing changed. -/
theorem onMessage_next {r : Nat} {m : Msg} {eff : State → State} {st u : State} (h : onMessage r m eff st = .next u) :
    (isReq st.cfg r && msgInRange st.cfg m) = true
      ∧ ((st.headIs r m = true ∧ u = (eff (st.dequeueIn r)).settle) ∨ (st.headIs r m = false ∧ u = st)) :=
  fire_next h

theorem headIs_iff (st : State) (r : Nat) (m : Msg) : st.headIs r m = true ↔ (st.inQOf r).head? = some m := by
  simp [State.headIs]

/-- In a well-formed state a message at the head of a queue is in range, and so is the requester. -/
theorem head_inRange {st : State} (h : st.Inv) {r : Nat} {m : Msg} (hm : (st.inQOf r).head? = some m) :
    isReq st.cfg r = true ∧ msgInRange st.cfg m = true := by
  have hr : r < st.cfg.reqs := by
    by_contra hlt
    have hlen := h.shape.inQ
    have : st.inQOf r = [] := by
      simp [State.inQOf, List.getD_eq_getElem?_getD, List.getElem?_eq_none (by omega : st.inQ.length ≤ r)]
    simp [this] at hm
  refine ⟨(isReq_iff _ _).2 hr, ?_⟩
  have hall := h.inQ r hr
  exact List.all_eq_true.1 hall m (List.mem_of_head? hm)

/-- In a well-formed state the action of a queue's head processes it. -/
theorem onMessage_head {st : State} (h : st.Inv) {r : Nat} {m : Msg} (hm : (st.inQOf r).head? = some m)
    (eff : State → State) : onMessage r m eff st = .next (eff (st.dequeueIn r)).settle := by
  have hin := head_inRange h hm
  have hh := (headIs_iff st r m).2 hm
  simp [onMessage, hin.1, hin.2, hh, fire]

/-! Bytes. -/

@[simp] theorem leBytes_length (n v : Nat) : (leBytes n v).length = n := by
  induction n generalizing v with
  | zero => rfl
  | succ n ih => simp [leBytes, ih]

end Sys2Proof.Machine
end

