-- ==== Sys2Proof/Laws/Actions.lean ====
section
/-! SUPPORT. What the effect of each action does to each field, said once: the gateway, register, claim and queue
operations. Cite these; do not unfold the operations. -/

namespace Sys2Proof.Machine

/-! Packed registers. -/

/-- One bit of a packed register (spec/30_encoding.md R94). -/
theorem packReg_testBit (c : Cfg) (f : Nat → Bool) (k j : Nat) :
    (packReg c f k).testBit j = (decide (j < c.g) && isSource c (k * c.g + j) && f (k * c.g + j)) := by
  suffices h : ∀ n, ((List.range n).foldl
      (fun v i => if isSource c (k * c.g + i) && f (k * c.g + i) then v ||| (1 <<< i) else v) 0).testBit j
        = (decide (j < n) && isSource c (k * c.g + j) && f (k * c.g + j)) from h c.g
  intro n
  induction n with
  | zero => simp
  | succ n ih =>
    rw [List.range_succ, List.foldl_append]
    simp only [List.foldl_cons, List.foldl_nil]
    by_cases hj : n = j
    · subst hj
      split
      · rename_i hh
        simp only [Bool.and_eq_true] at hh
        simp [Nat.testBit_or, Nat.one_shiftLeft, hh]
      · rename_i hh
        rw [ih]
        cases hs : isSource c (k * c.g + n) <;> cases hf : f (k * c.g + n) <;> simp_all
    · have hlt : decide (j < n + 1) = decide (j < n) := decide_eq_decide.2 (by omega)
      rw [hlt]
      split
      · rw [Nat.testBit_or, ih, Nat.one_shiftLeft, Nat.testBit_two_pow]
        simp [hj]
      · exact ih

/-- One bit of an enable row after a write (spec/41_registers.md R132). -/
theorem writeIeRow_at1 (c : Cfg) (t k w : Nat) (row : List Bool) (s : Nat) :
    at1 false (writeIeRow c t k w row) s
      = if 1 ≤ s ∧ s ≤ row.length then
          (match packedBit? c k w s with
          | some b => legalIE c t s b (at1 false row s)
          | none => at1 false row s)
        else false := by
  cases s with
  | zero => simp [at1]
  | succ j =>
    simp only [at1, writeIeRow, List.getD_eq_getElem?_getD, List.getElem?_mapIdx]
    by_cases hj : j < row.length
    · have hle : j + 1 ≤ row.length := hj
      simp only [List.getElem?_eq_getElem hj, Option.map_some, Option.getD_some, Nat.le_add_left, hle, and_self, if_true]
        <;> cases packedBit? c k w (j + 1) <;> rfl
    · simp [hj]

@[simp] theorem writeIeRow_length (c : Cfg) (t k w : Nat) (row : List Bool) :
    (writeIeRow c t k w row).length = row.length := by
  simp [writeIeRow]

/-! Queues. -/

/-- A requester whose queue holds a message has a queue. -/
theorem inQ_length_of_head {st : State} {r : Nat} {m : Msg} (hm : (st.inQOf r).head? = some m) : r < st.inQ.length := by
  by_contra hlt
  have hnil : st.inQOf r = [] := by
    simp [State.inQOf, List.getD_eq_getElem?_getD, List.getElem?_eq_none (by omega : st.inQ.length ≤ r)]
  simp [hnil] at hm

theorem dequeueIn_inQOf (st : State) (r r' : Nat) :
    (st.dequeueIn r).inQOf r' = if r' = r then (st.inQOf r).tail else st.inQOf r' := by
  show (st.inQ.set r (st.inQOf r).tail).getD r' [] = _
  rw [getD_set]
  by_cases hr : r' = r
  · subst hr
    by_cases hl : r' < st.inQ.length
    · simp [hl]
    · have hnil : st.inQOf r' = [] := by
        simp [State.inQOf, List.getD_eq_getElem?_getD, List.getElem?_eq_none (by omega : st.inQ.length ≤ r')]
      simp [hl, hnil]
  · simp [hr]
    rfl

theorem enqueueOut_outQOf (st : State) (r r' : Nat) (m : Resp) (h : r < st.outQ.length) :
    (st.enqueueOut r m).outQOf r' = if r' = r then st.outQOf r ++ [m] else st.outQOf r' := by
  show (st.outQ.set r (st.outQOf r ++ [m])).getD r' [] = _
  rw [getD_set]
  by_cases hr : r' = r <;> simp [hr, h, State.outQOf]

theorem enqueueIn_inQOf (st : State) (r r' : Nat) (m : Msg) (h : r < st.inQ.length) :
    (st.enqueueIn r m).inQOf r' = if r' = r then st.inQOf r ++ [m] else st.inQOf r' := by
  show (st.inQ.set r (st.inQOf r ++ [m])).getD r' [] = _
  rw [getD_set]
  by_cases hr : r' = r <;> simp [hr, h, State.inQOf]

/-! The effects, field by field. -/

/-- What forwarding leaves unchanged; `busy` and `reqQ` are `set1` writes (spec/40_gateways.md R112). -/
theorem forward_fields (s : Nat) (st : State) :
    (forward s st).busy = set1 st.busy s true ∧ (forward s st).reqQ = set1 st.reqQ s (st.reqQOf s + 1)
      ∧ (forward s st).ip = st.ip ∧ (forward s st).cnt = st.cnt ∧ (forward s st).line = st.line
      ∧ SameRegisters st (forward s st) ∧ SameQueues st (forward s st) ∧ SameNotifications st (forward s st)
      ∧ SameModel st (forward s st) :=
  ⟨rfl, rfl, rfl, rfl, rfl, ⟨rfl, rfl, rfl⟩, ⟨rfl, rfl, rfl⟩, ⟨rfl, rfl, rfl⟩, ⟨rfl, rfl, rfl⟩⟩

/-- What an edge does at an ignoring gateway: nothing, or a forwarding (spec/40_gateways.md R113). -/
theorem edgeIgnored_cases (s : Nat) (st : State) :
    (st.busyOf s = true ∧ edgeIgnored s st = st) ∨ (st.busyOf s = false ∧ edgeIgnored s st = forward s st) := by
  unfold edgeIgnored
  cases st.busyOf s <;> simp

/-- What accepting does to each field (spec/42_claim_completion.md R150). -/
theorem accepted_fields (s : Nat) (st : State) :
    (accepted s st).reqQ = set1 st.reqQ s (st.reqQOf s - 1) ∧ (accepted s st).ip = set1 st.ip s true
      ∧ (accepted s st).cnt = (if isEdgeCount st.cfg s then set1 st.cnt s (st.cntOf s - 1) else st.cnt)
      ∧ (accepted s st).busy = st.busy ∧ (accepted s st).line = st.line ∧ SameRegisters st (accepted s st)
      ∧ SameQueues st (accepted s st) ∧ SameNotifications st (accepted s st) ∧ SameModel st (accepted s st) := by
  unfold accepted
  dsimp only
  split <;> exact ⟨rfl, rfl, rfl, rfl, rfl, ⟨rfl, rfl, rfl⟩, ⟨rfl, rfl, rfl⟩, ⟨rfl, rfl, rfl⟩, ⟨rfl, rfl, rfl⟩⟩

/-- What a claim does to each field (spec/42_claim_completion.md R152). -/
theorem claimed_fields (r t : Nat) (st : State) :
    (claimed r t st).ip = (if st.best t = 0 then st.ip else set1 st.ip (st.best t) false)
      ∧ (claimed r t st).outQ = st.outQ.set r (st.outQOf r ++ [.cresp (st.best t)])
      ∧ (claimed r t st).inQ = st.inQ ∧ (claimed r t st).rcvd = st.rcvd ∧ SameRegisters st (claimed r t st)
      ∧ SameGateways st (claimed r t st) ∧ SameNotifications st (claimed r t st) ∧ SameModel st (claimed r t st) := by
  unfold claimed
  dsimp only
  split <;> exact ⟨rfl, rfl, rfl, rfl, ⟨rfl, rfl, rfl⟩, ⟨rfl, rfl, rfl, rfl⟩, ⟨rfl, rfl, rfl⟩, ⟨rfl, rfl, rfl⟩⟩

/-- What a completion does to each field (spec/42_claim_completion.md R154). -/
theorem completed_fields (t s : Nat) (st : State) :
    (completed t s st).busy = (if st.ieOf t s then set1 st.busy s false else st.busy) ∧ (completed t s st).ip = st.ip
      ∧ (completed t s st).cnt = st.cnt ∧ (completed t s st).line = st.line ∧ (completed t s st).reqQ = st.reqQ
      ∧ SameRegisters st (completed t s st) ∧ SameQueues st (completed t s st) ∧ SameNotifications st (completed t s st)
      ∧ SameModel st (completed t s st) := by
  unfold completed
  split <;> exact ⟨rfl, rfl, rfl, rfl, rfl, ⟨rfl, rfl, rfl⟩, ⟨rfl, rfl, rfl⟩, ⟨rfl, rfl, rfl⟩, ⟨rfl, rfl, rfl⟩⟩

/-- `best` names a source of the configuration or 0. -/
theorem best_le (st : State) (t : Nat) : st.best t ≤ numSources st.cfg := by
  suffices h : ∀ (l : List Nat) (b : Nat), (∀ s ∈ l, s ≤ numSources st.cfg) → b ≤ numSources st.cfg →
      l.foldl (st.bestStep t) b ≤ numSources st.cfg from
    h _ _ (fun s hs => ((isSource_iff _ _).1 ((mem_sourceIds _ _).1 hs)).2) (Nat.zero_le _)
  intro l
  induction l with
  | nil => exact fun b _ hb => hb
  | cons x xs ih =>
    intro b hl hb
    apply ih _ (fun s hs => hl s (by simp [hs]))
    unfold State.bestStep
    split_ifs
    · exact hl x (by simp)
    · exact hb
    · exact hb

end Sys2Proof.Machine
end

