-- ==== Sys2Proof/Laws/PerInstr.lean ====
section
/-! SUPPORT. For every action, what its word is made of: a family the host splits by constructor. -/

namespace Sys2Proof.Laws

/-- The first byte of the action's word carries its row and one-bit operand, the row has as many operands as the action,
and building the row from them gives the action back. -/
def WordParts.Statement (i : Instr) : Prop :=
  encode i = headByte i.row i.bit :: i.operands.flatMap encodeNat
    ∧ (headByte i.row i.bit).toNat = 4 * i.row + i.bit.toNat
    ∧ operandCount i.row = some i.operands.length
    ∧ i.bit.toNat ≤ fieldMax i.row
    ∧ buildInstr i.row i.bit i.operands = some i

theorem WordParts.line (src : Nat) (b : Bool) : WordParts.Statement (.line src b) := by
  cases b
  · exact ⟨rfl, rfl, rfl, Nat.zero_le _, rfl⟩
  · exact ⟨rfl, rfl, rfl, Nat.le_refl _, rfl⟩

theorem WordParts.fwdL (src : Nat) : WordParts.Statement (.fwdL src) :=
  ⟨rfl, rfl, rfl, Nat.zero_le _, rfl⟩

theorem WordParts.edgeI (src : Nat) : WordParts.Statement (.edgeI src) :=
  ⟨rfl, rfl, rfl, Nat.zero_le _, rfl⟩

theorem WordParts.edgeC (src : Nat) : WordParts.Statement (.edgeC src) :=
  ⟨rfl, rfl, rfl, Nat.zero_le _, rfl⟩

theorem WordParts.fwdC (src : Nat) : WordParts.Statement (.fwdC src) :=
  ⟨rfl, rfl, rfl, Nat.zero_le _, rfl⟩

theorem WordParts.msi (src : Nat) : WordParts.Statement (.msi src) :=
  ⟨rfl, rfl, rfl, Nat.zero_le _, rfl⟩

theorem WordParts.wprio (r src w : Nat) : WordParts.Statement (.wprio r src w) :=
  ⟨rfl, rfl, rfl, Nat.zero_le _, rfl⟩

theorem WordParts.wie (r t k w : Nat) : WordParts.Statement (.wie r t k w) :=
  ⟨rfl, rfl, rfl, Nat.zero_le _, rfl⟩

theorem WordParts.wthr (r t w : Nat) : WordParts.Statement (.wthr r t w) :=
  ⟨rfl, rfl, rfl, Nat.zero_le _, rfl⟩

theorem WordParts.rprio (r src : Nat) : WordParts.Statement (.rprio r src) :=
  ⟨rfl, rfl, rfl, Nat.zero_le _, rfl⟩

theorem WordParts.rie (r t k : Nat) : WordParts.Statement (.rie r t k) :=
  ⟨rfl, rfl, rfl, Nat.zero_le _, rfl⟩

theorem WordParts.rthr (r t : Nat) : WordParts.Statement (.rthr r t) :=
  ⟨rfl, rfl, rfl, Nat.zero_le _, rfl⟩

theorem WordParts.rip (r k : Nat) : WordParts.Statement (.rip r k) :=
  ⟨rfl, rfl, rfl, Nat.zero_le _, rfl⟩

theorem WordParts.accept (src : Nat) : WordParts.Statement (.accept src) :=
  ⟨rfl, rfl, rfl, Nat.zero_le _, rfl⟩

theorem WordParts.claim (r t : Nat) : WordParts.Statement (.claim r t) :=
  ⟨rfl, rfl, rfl, Nat.zero_le _, rfl⟩

theorem WordParts.complete (r t src : Nat) : WordParts.Statement (.complete r t src) :=
  ⟨rfl, rfl, rfl, Nat.zero_le _, rfl⟩

theorem WordParts.resp (r : Nat) : WordParts.Statement (.resp r) :=
  ⟨rfl, rfl, rfl, Nat.zero_le _, rfl⟩

theorem WordParts.notify (t : Nat) (v : Bool) : WordParts.Statement (.notify t v) := by
  cases v
  · exact ⟨rfl, rfl, rfl, Nat.zero_le _, rfl⟩
  · exact ⟨rfl, rfl, rfl, Nat.le_refl _, rfl⟩

end Sys2Proof.Laws
end

