-- ==== Sys2Proof/Tests/Slice0.lean ====
section
/-! SUPPORT. Tests: ill-formed terms refused, words decoded, one step of each action against spec/95_test_vectors.md, and
for each statement with hypotheses a state and operands that meet them (`wit_…`). -/

namespace Sys2Proof.Tests

open Sys2Proof Sys2Proof.Machine

/-! Ill-formed configurations and actions. -/

theorem test_source_overlap : SourceCfg.wf 3 ⟨.level, 1, 7⟩ = false := by decide
theorem test_source_prioOne_wide : SourceCfg.wf 3 ⟨.level, 8, 7⟩ = false := by decide
theorem test_source_prioVar_wide : SourceCfg.wf 3 ⟨.level, 0, 8⟩ = false := by decide
theorem test_target_thr_wide : TargetCfg.wf 3 1 ⟨.other, 8, [.rw]⟩ = false := by decide
theorem test_target_row_short : TargetCfg.wf 3 2 ⟨.other, 7, [.rw]⟩ = false := by decide
theorem test_map_zero_width : RegMap.wf 3 4 4 2 (.table 0 4 [] []) = false := by decide
theorem test_map_narrow_prio : RegMap.wf 9 4 4 2 (.table 1 4 [] []) = false := by decide
theorem test_map_narrow_pack : RegMap.wf 3 9 4 2 (.table 1 4 [] []) = false := by decide
theorem test_map_no_granule : RegMap.wf 3 4 4 2 (.table 4 0 [] []) = false := by decide
theorem test_map_granule_cuts : RegMap.wf 3 4 4 2 (.table 4 6 [] []) = false := by decide
theorem test_map_read_twice : RegMap.wf 3 4 4 2 (.table 4 4 [(0, .thr 0), (0, .thr 0)] []) = false := by decide
theorem test_map_write_twice : RegMap.wf 3 4 4 2 (.table 4 4 [] [(0, .thr 0), (0, .complete 0)]) = false := by decide
theorem test_map_read_unaligned : RegMap.wf 3 4 4 2 (.table 4 4 [(2, .thr 0)] []) = false := by decide
theorem test_map_write_unaligned : RegMap.wf 3 4 4 2 (.table 4 4 [] [(2, .thr 0)]) = false := by decide
theorem test_map_shared : RegMap.wf 3 4 4 2 (.table 4 4 [(0, .claim 0)] [(0, .thr 0)]) = false := by decide
theorem test_map_two_targets : RegMap.wf 3 4 4 2 (.table 4 4096 [(0, .claim 0)] [(8, .complete 1)]) = false := by decide
theorem test_map_with_priority : RegMap.wf 3 4 4 2 (.table 4 4096 [(8, .prio 1)] [(0, .thr 0)]) = false := by decide
theorem test_map_reference_base : RegMap.wf 3 32 4 2 (.reference 0x800) = false := by decide
theorem test_map_reference_pack : RegMap.wf 3 16 4 2 (.reference 0) = false := by decide
theorem test_map_reference_prio : RegMap.wf 33 32 4 2 (.reference 0) = false := by decide
theorem test_map_reference_sources : RegMap.wf 3 32 1024 2 (.reference 0) = false := by decide
theorem test_map_reference_targets : RegMap.wf 3 32 4 15873 (.reference 0) = false := by decide
theorem test_cfg_no_priority_bits : Cfg.wf { Config.vectorsA with pw := 0, sources := [], targets := [] } = false := by decide
theorem test_cfg_no_packing : Cfg.wf { Config.vectorsA with g := 0, regMap := .unmapped } = false := by decide
theorem test_cfg_bad_source : Cfg.wf { Config.vectorsA with pw := 2 } = false := by decide
theorem test_cfg_bad_target : Cfg.wf { Config.vectorsA with sources := [] } = false := by decide
theorem test_cfg_bad_map : Cfg.wf { Config.vectorsA with regMap := .reference 4 } = false := by decide
theorem test_cfg_vectorsA : Config.vectorsA.wf = true := by decide

/-- A state that a platform may give as `Init`: a priority set, a request pending and its gateway awaiting a completion. -/
def bootInit : InitState :=
  { defaultInit Config.vectorsA [true] with
    ip := [true, false, false, false]
    prio := [3, 0, 0, 0]
    busy := [true, false, false, false] }

/-- `CFG-A` with a given state after reset. -/
def withInit (x : InitState) : Cfg := { Config.vectorsA with init := some x }

theorem test_init_given : (withInit bootInit).wf = true := by decide
theorem test_init_short : (withInit { bootInit with ip := [] }).wf = false := by decide
theorem test_init_row_short : (withInit { bootInit with ie := [[], []] }).wf = false := by decide
theorem test_init_priority : (withInit { bootInit with prio := [8, 0, 0, 0] }).wf = false := by decide
theorem test_init_threshold : (withInit { bootInit with thr := [8, 0] }).wf = false := by decide
theorem test_init_enable : { withInit bootInit with
    targets := [⟨.other, 7, [.rw, .rw, .rw, .rw]⟩, ⟨.other, 7, [.rw, .rw, .rw, .hard1]⟩] }.wf = false := by decide
theorem test_init_counter : { withInit { bootInit with cnt := [0, 0, 0, 3] } with
    sources := [⟨.level, 0, 7⟩, ⟨.level, 0, 7⟩, ⟨.edgeIgnore, 0, 7⟩, ⟨.edgeCount (some 2), 0, 7⟩] }.wf = false := by decide
theorem test_init_requests : (withInit { bootInit with reqQ := [0, 0, 0, 1] }).wf = false := by decide
theorem test_init_counter_elsewhere : (withInit { bootInit with cnt := [1, 0, 0, 0] }).wf = false := by decide
theorem test_init_line_elsewhere : (withInit { bootInit with line := [true, false, true, false] }).wf = false := by decide
theorem test_init_seen0 : (withInit { bootInit with seen0 := [true, false] }).wf = false := by decide
theorem test_init_seen1 : (withInit { bootInit with
    ie := [[true, false, false, false], [false, false, false, false]] }).wf = false := by decide
theorem test_init_wire : { withInit { bootInit with notif := [true, false] } with notifyModel := .wire }.wf = false := by
  decide
theorem test_init_message : (withInit { bootInit with inQ := [[.claim 2], []] }).wf = false := by decide
theorem test_init_response : (withInit { bootInit with outQ := [[.cresp 5], []] }).wf = false := by decide

/-- One action outside the configuration for each check of `Instr.wf`. -/
theorem test_instr_refused :
    [Instr.line 3 true, .line 0 true, .fwdL 5, .edgeI 4, .edgeC 3, .fwdC 1, .msi 1, .wprio 0 5 1, .wprio 2 1 1,
      .wie 0 2 0 1, .wie 0 0 1 1, .wie 2 0 0 1, .wthr 0 2 1, .wthr 2 0 1, .rprio 0 0, .rprio 2 1, .rie 0 2 0,
      .rie 0 0 1, .rie 2 0 0, .rthr 0 2, .rthr 2 0, .rip 0 1, .rip 2 0, .accept 0, .accept 5, .claim 0 2, .claim 2 0,
      .complete 0 2 1, .complete 0 0 0, .complete 0 0 5, .complete 2 0 1, .resp 2, .notify 2 true].all
        (fun i => Instr.wf Config.vectorsA i == false) = true := by decide

/-- Under `wire` NOTIFY does not exist (NT1). -/
theorem test_instr_notify_wire :
    Instr.wf { Config.vectorsA with notifyModel := .wire } (.notify 0 true) = false := by decide

/-! A word written out for every action, from the layout of Decode.lean (log 8): row * 4 + bit, then the operands. -/

theorem test_decode_line : decodeWord [0b00000101, 2] = .ok (.line 2 true) := by rfl
theorem test_decode_fwdL : decodeWord [0b00001000, 1] = .ok (.fwdL 1) := by rfl
theorem test_decode_edgeI : decodeWord [0b00001100, 3] = .ok (.edgeI 3) := by rfl
theorem test_decode_edgeC : decodeWord [0b00010000, 4] = .ok (.edgeC 4) := by rfl
theorem test_decode_fwdC : decodeWord [0b00010100, 4] = .ok (.fwdC 4) := by rfl
theorem test_decode_msi : decodeWord [0b00011000, 0x83, 0x01] = .ok (.msi 131) := by rfl
theorem test_decode_wprio : decodeWord [0b00011100, 1, 2, 0xFF, 0x01] = .ok (.wprio 1 2 255) := by rfl
theorem test_decode_wie : decodeWord [0b00100000, 0, 1, 2, 10] = .ok (.wie 0 1 2 10) := by rfl
theorem test_decode_wthr : decodeWord [0b00100100, 1, 0, 7] = .ok (.wthr 1 0 7) := by rfl
theorem test_decode_rprio : decodeWord [0b00101000, 1, 2] = .ok (.rprio 1 2) := by rfl
theorem test_decode_rie : decodeWord [0b00101100, 0, 1, 2] = .ok (.rie 0 1 2) := by rfl
theorem test_decode_rthr : decodeWord [0b00110000, 1, 0] = .ok (.rthr 1 0) := by rfl
theorem test_decode_rip : decodeWord [0b00110100, 1, 0] = .ok (.rip 1 0) := by rfl
theorem test_decode_accept : decodeWord [0b00111000, 3] = .ok (.accept 3) := by rfl
theorem test_decode_claim : decodeWord [0b00111100, 1, 0] = .ok (.claim 1 0) := by rfl
theorem test_decode_complete : decodeWord [0b01000000, 1, 0, 3] = .ok (.complete 1 0 3) := by rfl
theorem test_decode_resp : decodeWord [0b01000100, 1] = .ok (.resp 1) := by rfl
theorem test_decode_notify : decodeWord [0b01001000, 1, 0, 0] = .ok (.notify 1 false) := by rfl
theorem test_decode_reserved_field : decodeWord [0b00001001, 1] = .error (.reservedField 2 1) := by rfl
theorem test_decode_truncated : decodeWord [0b00011100, 1, 0x82] = .error .truncated := by rfl
theorem test_decode_trailing : decodeWord [0b00001000, 1, 9] = .error .trailing := by rfl
theorem test_decode_empty : decodeWord [] = .error .empty := by rfl
theorem test_decode_table : decodeTableWord 16 0x0205 = some (.line 2 true) := by rfl

/-! One step of each action, on `CFG-A` of spec/95_test_vectors.md; each test names its vector. -/

/-- The next state, if the outcome is one. -/
def next? (o : Host.Outcome State Fault Refusal) : Option State :=
  match o with
  | .next u => some u
  | .fault _ => none
  | .refused _ => none

theorem next_of {o : Host.Outcome State Fault Refusal} (h : (next? o).isSome = true) : ∃ u, o = .next u := by
  cases o with
  | next u => exact ⟨u, rfl⟩
  | fault r => cases r
  | refused r => cases h

/-- What a test reads of the state after an action, if the action answers one. -/
def look {α : Type} (i : Instr) (st : State) (f : State → α) : Option α := (next? (exec i st)).map f

/-- The state `A0` of spec/95_test_vectors.md with requester 0's queue holding `m`. -/
def a0 (m : List Msg) : State := { State.resetOf Config.vectorsA [] with inQ := [m, []] }

/-- The start of CL5: three pending sources, the threshold at its maximum. -/
def cl5 : State :=
  { a0 [.claim 0] with
    ip := [true, true, true, false]
    prio := [2, 5, 5, 0]
    ie := [[true, true, true, false], [false, false, false, false]]
    thr := [7, 0] }

theorem test_line_rises : look (.line 1 true) (a0 []) (fun u => (u.lineOf 1, enabled u (.fwdL 1))) = some (true, true) := by
  decide -- GW2
theorem test_line_falls :
    look (.line 1 false) { a0 [] with
      line := [true, false, false, false]
      busy := [true, false, false, false]
      ip := [true, false, false, false] } (fun u => (u.lineOf 1, u.ipOf 1, u.busyOf 1)) = some (false, true, true) := by
  decide -- GW7
theorem test_fwdL : look (.fwdL 1) { a0 [] with line := [true, false, false, false] }
    (fun u => (u.busyOf 1, u.reqQOf 1)) = some (true, 1) := by decide -- GW3
theorem test_fwdL_pulse_missed : enabled (a0 []) (.fwdL 1) = false := by decide -- GW5, GW6
theorem test_edgeI : look (.edgeI 3) (a0 []) (fun u => (u.busyOf 3, u.reqQOf 3)) = some (true, 1) := by decide -- GW8
theorem test_edgeI_lost : look (.edgeI 3) { a0 [] with busy := [false, false, true, false] }
    (fun u => (u.busyOf 3, u.reqQOf 3)) = some (true, 0) := by decide -- GW10
theorem test_edgeC : look (.edgeC 4) (a0 []) (fun u => (u.cntOf 4, u.busyOf 4, u.reqQOf 4)) = some (1, false, 0) := by
  decide -- GW11
theorem test_fwdC : look (.fwdC 4) { a0 [] with cnt := [0, 0, 0, 3] } (fun u => (u.cntOf 4, u.busyOf 4, u.reqQOf 4))
    = some (3, true, 1) := by decide -- GW13
theorem test_fwdC_on_its_way : enabled { a0 [] with cnt := [0, 0, 0, 1], reqQ := [0, 0, 0, 1] } (.fwdC 4) = false := by
  decide -- GW16
theorem test_msi_ignore : look (.msi 3) (a0 []) (fun u => (u.busyOf 3, u.reqQOf 3)) = some (true, 1) := by decide -- GW18
theorem test_msi_count : look (.msi 4) { a0 [] with cnt := [0, 0, 0, 1] } (fun u => u.cntOf 4) = some 2 := by
  decide -- GW19
theorem test_wprio_high_bits : look (.wprio 0 2 0xFFFFFFF8) (a0 [.wprio 2 0xFFFFFFF8]) (fun u => u.prioOf 2) = some 0 := by
  decide -- RG4
theorem test_wprio_masks : look (.wprio 0 2 0) { a0 [.wprio 2 0] with
      ip := [false, true, false, false]
      prio := [0, 5, 0, 0]
      ie := [[false, true, false, false], [false, false, false, false]] }
    (fun u => (u.eip 0, u.ipOf 2, u.best 0)) = some (false, true, 0) := by decide -- RG28
theorem test_wie : look (.wie 0 0 0 0x1E) (a0 [.wie 0 0 0x1E]) (fun u => (u.ieRow 0, u.ieRow 1))
    = some ([true, true, true, true], [false, false, false, false]) := by decide -- RG25
theorem test_wthr_strict : look (.wthr 0 0 5) { a0 [.wthr 0 5] with
      ip := [false, true, false, false]
      prio := [0, 5, 0, 0]
      ie := [[false, true, false, false], [false, false, false, false]] }
    (fun u => (u.thrOf 0, u.eip 0, u.ipOf 2)) = some (5, false, true) := by decide -- RG26
theorem test_rprio : look (.rprio 0 2) { a0 [.rprio 2] with prio := [0, 5, 0, 0] } (fun u => u.outQOf 0)
    = some [.rresp 5] := by decide -- RG33
theorem test_rie : look (.rie 0 0 0) { a0 [.rie 0 0] with
    ie := [[true, false, true, false], [false, false, false, false]] } (fun u => u.outQOf 0) = some [.rresp 0xA] := by
  decide -- RG20
theorem test_rthr : look (.rthr 0 1) { a0 [.rthr 1] with thr := [0, 3] } (fun u => u.outQOf 0) = some [.rresp 3] := by
  decide -- RG34
theorem test_rip : look (.rip 0 0) { a0 [.rip 0] with ip := [true, false, true, false] } (fun u => (u.outQOf 0, u.ip))
    = some ([.rresp 0xA], [true, false, true, false]) := by decide -- RG31
theorem test_accept : look (.accept 4) { a0 [] with reqQ := [0, 0, 0, 1], cnt := [0, 0, 0, 3] }
    (fun u => (u.reqQOf 4, u.ipOf 4, u.cntOf 4)) = some (0, true, 2) := by decide -- CL4
theorem test_accept_multicast : look (.accept 1) { a0 [] with
      reqQ := [1, 0, 0, 0]
      prio := [1, 0, 0, 0]
      ie := [[true, false, false, false], [true, false, false, false]]
      thr := [0, 1] } (fun u => (u.eip 0, u.eip 1))
    = some (true, false) := by decide -- S16
theorem test_claim_tie : look (.claim 0 0) cl5 (fun u => (u.outQOf 0, u.ip, u.eip 0))
    = some ([.cresp 2], [true, false, true, false], false) := by decide -- CL5
theorem test_claim_nothing : look (.claim 0 0) (a0 [.claim 0]) (fun u => (u.outQOf 0, u.ip))
    = some ([.cresp 0], [false, false, false, false]) := by decide -- CL9
theorem test_complete : look (.complete 0 0 3) { a0 [.complete 0 3] with
      busy := [false, false, true, false]
      ie := [[false, false, true, false], [false, false, false, false]] } (fun u => (u.busyOf 3, u.outQOf 0))
    = some (false, []) := by decide -- CL14
theorem test_complete_dropped : look (.complete 0 1 3) { a0 [.complete 1 3] with
      busy := [false, false, true, false]
      ie := [[false, false, true, false], [false, false, false, false]] } (fun u => (u.busyOf 3, u.inQOf 0))
    = some (true, []) := by decide -- CL15
theorem test_resp : look (.resp 0) { a0 [] with outQ := [[.cresp 2, .rresp 5], []] } (fun u => (u.rcvdOf 0, u.outQOf 0))
    = some ([.cresp 2], [.rresp 5]) := by decide -- CL19
theorem test_notify_late : look (.notify 0 true) { a0 [] with seen1 := [true, false] } (fun u => (u.notifOf 0, u.eip 0))
    = some (true, false) := by decide -- NT6
theorem test_notify_never_one : enabled (a0 []) (.notify 0 true) = false := by decide -- NT4

/-! Accesses through the reference map (spec/95_test_vectors.md section 3.5). -/

theorem test_bus_write_prio : busWriteMeaning Config.vectorsA 0x0C000004 4 (leValue [3, 0, 0, 0])
    = .message (.wprio 1 3) := by decide -- MP1
theorem test_bus_read_prio : busReadMeaning Config.vectorsA 0x0C000010 4 = .message (.rprio 4) := by decide -- MP2
theorem test_bus_no_source : busReadMeaning Config.vectorsA 0x0C000014 4 = .refused := by decide -- MP3
theorem test_bus_id_zero : (busReadMeaning Config.vectorsA 0x0C000000 4, busWriteMeaning Config.vectorsA 0x0C000000 4 1)
    = (.refused, .ignored) := by decide -- MP4, MP5
theorem test_bus_outside : (busReadMeaning Config.vectorsA 0x10000000 4, busWriteMeaning Config.vectorsA 0x10000000 4 1,
    busWriteMeaning Config.vectorsA 0x0BFFFFFC 4 1) = (.refused, .ignored, .ignored) := by decide -- R190, D17, U5
theorem test_bus_unmapped : (busReadMeaning { Config.vectorsA with regMap := .unmapped } 0 4,
    busWriteMeaning { Config.vectorsA with regMap := .unmapped } 0 4 1) = (.refused, .ignored) := by decide -- R190
theorem test_bus_claim_bytes : (Resp.cresp 2).dataBytes 4 = [0x02, 0x00, 0x00, 0x00] := by decide -- MP22
theorem test_bus_value : leValue [0x34, 0x12] = 0x1234 := by decide -- R64

/-! The state in which most statements' hypotheses are met: two level sources, one of them hardwired, an ignoring and two
counting gateways, hardwired enables and a threshold hardwired to 0, requests waiting, pending and claimed. -/

def demoCfg : Cfg where
  pw := 3
  sources := [⟨.level, 0, 7⟩, ⟨.level, 1, 6⟩, ⟨.edgeIgnore, 0, 7⟩, ⟨.edgeCount none, 0, 7⟩, ⟨.edgeCount (some 2), 0, 7⟩,
    ⟨.level, 1, 0⟩]
  targets := [⟨.hartContext 0 .m, 7, [.rw, .rw, .rw, .rw, .rw, .hard1]⟩, ⟨.other, 0, [.rw, .hard0, .rw, .rw, .rw, .rw]⟩]
  reqs := 2
  notifyModel := .anyPast
  g := 4
  regMap := .unmapped
  init := none

def demo : State :=
  State.settle
    { State.resetOf demoCfg [true, true, false, false, false, true] with
      ip := [false, true, true, false, false, false]
      prio := [5, 7, 5, 2, 7, 1]
      ie := [[true, true, true, true, true, true], [true, false, true, true, true, true]]
      thr := [2, 0]
      busy := [false, true, true, false, false, false]
      cnt := [0, 0, 0, 2, 2, 0]
      reqQ := [1, 0, 0, 1, 0, 0]
      outQ := [[.cresp 2, .rresp 5], []] }

theorem demo_inv : demo.Inv := by
  constructor
  case shape => constructor <;> decide
  all_goals decide

/-- The same with the first requester's queue holding `q`. -/
def demoQ (q : List Msg) : State := { demo with inQ := [q, []] }

theorem demoQ_inv (q : List Msg) (h : q.all (msgInRange demoCfg) = true) : (demoQ q).Inv where
  cfgWf := demo_inv.cfgWf
  shape := { demo_inv.shape with inQ := rfl }
  prioLegal := demo_inv.prioLegal
  thrLegal := demo_inv.thrLegal
  ieLegal := demo_inv.ieLegal
  cntBound := demo_inv.cntBound
  reqCounted := demo_inv.reqCounted
  cntElsewhere := demo_inv.cntElsewhere
  lineElsewhere := demo_inv.lineElsewhere
  seen1 := demo_inv.seen1
  seen0 := demo_inv.seen0
  wire := demo_inv.wire
  inQ := by
    intro r hr
    match r, hr with
    | 0, _ => exact h
    | 1, _ => rfl
    | n + 2, hn => exact absurd hn (by show ¬ n + 2 < 2; omega)
  outQ := demo_inv.outQ

/-- The same with every gateway receptive. -/
def idle : State := { demo with busy := [false, false, false, false, false, false] }

theorem idle_inv : idle.Inv := by
  constructor
  case shape => constructor <;> decide
  all_goals decide

/-- The same under another notification model. -/
def demoN (n : NotifyModel) : State := { demo with cfg := { demoCfg with notifyModel := n }, notif := [true, true] }

theorem demoN_inv (n : NotifyModel) : (demoN n).Inv := by
  cases n <;> constructor
  case wire.shape => constructor <;> decide
  case sample.shape => constructor <;> decide
  case anyPast.shape => constructor <;> decide
  all_goals decide

/-- A state on the reference map with one event to come. -/
def onBus (e : Event) : State := { State.resetOf Config.vectorsA [true] with agenda := [e] }

theorem levelA_inv : (State.resetOf Config.vectorsA [true]).Inv := by
  constructor
  case shape => constructor <;> decide
  all_goals decide

theorem onBus_inv (e : Event) : (onBus e).Inv :=
  { levelA_inv with shape := { levelA_inv.shape with } }

/-- Nothing pending, nothing waiting. -/
def quiet : State := State.resetOf demoCfg []

theorem quiet_inv : quiet.Inv := by
  constructor
  case shape => constructor <;> decide
  all_goals decide

theorem quiet_quiescent : quiet.Quiescent := by
  refine ⟨by decide, by decide, ?_, ?_, by decide⟩
  · intro s _
    left
    rcases s with _ | _ | _ | _ | _ | _ | _ | s <;> rfl
  · intro s _
    left
    rcases s with _ | _ | _ | _ | _ | _ | _ | s <;> rfl

/-- The same under `sample`. -/
def quietSample : State := State.resetOf { demoCfg with notifyModel := .sample } []

theorem quietSample_inv : quietSample.Inv := by
  constructor
  case shape => constructor <;> decide
  all_goals decide

theorem quietSample_quiescent : quietSample.Quiescent :=
  ⟨by decide, by decide, quiet_quiescent.2.2.1, quiet_quiescent.2.2.2.1, by decide⟩

/-! Hypotheses met together, statement by statement. -/

theorem wit_ReservedRowsAreRefused :
    (0x03#8).toNat / 4 = 0 ∧ 18 < (0x4C#8).toNat / 4 ∧ 18 < (0xFF#8).toNat / 4 := by decide

theorem wit_StepRunsTheDecodedAction :
    (onBus (.action [0b00111000, 1])).agenda = .action [0b00111000, 1] :: []
      ∧ decodeWord [0b00111000, 1] = .ok (.accept 1) := ⟨rfl, rfl⟩

theorem wit_PlacedWordRunsNext : decodeTableWord 16 0x0138 = some (.accept 1) := by rfl

theorem wit_OpenChoiceNeverStops : State.reset.agenda = [] := rfl

theorem wit_SentMessagesAreQueued :
    (∀ e, (onBus e).agenda = [e] ∧ (onBus e).Inv) ∧ 1 < Config.vectorsA.reqs
      ∧ msgInRange Config.vectorsA (.claim 1) = true ∧ msgInRange Config.vectorsA (.complete 1 4) = true
      ∧ busReadMeaning Config.vectorsA 0x0C201004 4 = .message (.claim 1)
      ∧ busWriteMeaning Config.vectorsA 0x0C201004 [4, 0, 0, 0].length (leValue [4, 0, 0, 0])
          = .message (.complete 1 4)
      ∧ busWriteMeaning Config.vectorsA 0x0C201004 [5, 0, 0, 0].length (leValue [5, 0, 0, 0]) = .ignored
      ∧ busWriteMeaning Config.vectorsA 0x0C001000 [1, 0, 0, 0].length (leValue [1, 0, 0, 0]) = .ignored
      ∧ busWriteMeaning Config.vectorsA 0x0C000004 [1, 0].length (leValue [1, 0]) = .refused
      ∧ busReadMeaning Config.vectorsA 0x0C000000 4 = .refused :=
  ⟨fun e => ⟨rfl, onBus_inv e⟩, by decide⟩

theorem wit_ResetIsWellFormed :
    demoCfg.wf = true ∧ demoCfg.init = none ∧ Config.vectorsA.wf = true ∧ (withInit bootInit).wf = true := by decide

theorem wit_ResetLeavesTheseValues :
    (demoCfg.wf = true ∧ demoCfg.init = none ∧ isSource demoCfg 1 = true ∧ isSource demoCfg 6 = true
      ∧ isLevel demoCfg 6 = true ∧ isTarget demoCfg 1 = true)
      ∧ (withInit bootInit).wf = true ∧ (withInit bootInit).init = some bootInit
      ∧ (State.resetOf (withInit bootInit) []).ipOf 1 = true := by decide

theorem demo_past : demo.NotifPast := by unfold State.NotifPast; decide

theorem wit_StepKeepsStatesWellFormed :
    (onBus (.send 0 (.claim 0))).Inv ∧ ∃ u, step (onBus (.send 0 (.claim 0))) = .next u :=
  ⟨onBus_inv _, next_of (by decide)⟩

theorem wit_StepKeepsNotificationsPast :
    (onBus (.action [0b00001000, 1])).Inv ∧ (onBus (.action [0b00001000, 1])).NotifPast
      ∧ ∃ u, step (onBus (.action [0b00001000, 1])) = .next u :=
  ⟨onBus_inv _, by unfold State.NotifPast; decide, next_of (by decide)⟩

theorem wit_StepKeepsConfigurationAndHistory :
    ∃ u, step (onBus (.action [0b00001000, 1])) = .next u ∧ (onBus (.action [0b00001000, 1])).seen0Of 0 = true := by
  obtain ⟨u, hu⟩ := next_of (o := step (onBus (.action [0b00001000, 1]))) (by decide)
  exact ⟨u, hu, by decide⟩

theorem wit_BestIsTheBestEligibleSource :
    demo.best 0 = 2 ∧ demo.best 1 = 3 ∧ quiet.best 0 = 0 ∧ demo.better 2 5 = true ∧ demo.better 5 1 = true := by decide

theorem wit_EipIsCombinational :
    demo.eip 0 = true ∧ quiet.eip 0 = false ∧ (demoQ [.rip 0]).cfg = demo.cfg ∧ (demoQ [.rip 0]).ip = demo.ip := by
  decide

theorem wit_EipAgainstClaimsAndThresholds :
    demo.eip 0 = true ∧ demo.thrOf 1 = 0 ∧ cl5.eip 0 = false ∧ quiet.prioOf 1 = 0 ∧ quiet.prioOf 0 = 0
      ∧ quiet.best 0 = 0 ∧ ∀ s, isSource cl5.cfg s = true → cl5.prioOf s ≤ cl5.thrOf 0 := by
  refine ⟨by decide, by decide, by decide, by decide, by decide, by decide, ?_⟩
  intro s hs
  rw [isSource_iff] at hs
  have key : ∀ s, s ≤ 4 → cl5.prioOf s ≤ cl5.thrOf 0 := by decide
  exact key s hs.2

theorem wit_ClaimsIgnoreThresholds : (demoQ [.claim 0]).Inv ∧ ((demoQ [.claim 0]).inQOf 0).head? = some (.claim 0) :=
  ⟨demoQ_inv _ (by decide), by decide⟩

theorem wit_LegalEnableBit :
    ieKind demoCfg 0 1 = .rw ∧ ieKind demoCfg 1 2 = .hard0 ∧ ieKind demoCfg 0 6 = .hard1 := by decide

theorem wit_LegalPriorityAndThresholdBits : demoCfg.wf = true := by decide

theorem wit_DiscoveryFindsThePriorityBits :
    (demoQ [.wprio 2 0, .rprio 2, .wprio 2 7, .rprio 2]).Inv
      ∧ (demoQ [.wprio 2 0, .rprio 2, .wprio 2 7, .rprio 2]).inQOf 0
          = .wprio 2 0 :: .rprio 2 :: .wprio 2 (2 ^ demoCfg.pw - 1) :: .rprio 2 :: [] :=
  ⟨demoQ_inv _ (by decide), by decide⟩

theorem wit_LineSetsTheLevel : demo.Inv ∧ isLevel demo.cfg 1 = true ∧ demo.lineOf 1 = true ∧ demo.lineOf 2 = true :=
  ⟨demo_inv, by decide⟩

theorem wit_ForwardingSendsOneRequest :
    demo.Inv ∧ (demo.busyOf 1 = false ∧ isLevel demo.cfg 1 = true ∧ demo.lineOf 1 = true)
      ∧ demo.busyOf 4 = false ∧ isEdgeCount demo.cfg 4 = true ∧ demo.cntOf 4 > demo.reqQOf 4 :=
  ⟨demo_inv, by decide⟩

theorem wit_EdgeAtIgnoringGateway :
    idle.Inv ∧ demo.Inv ∧ isEdgeIgnore idle.cfg 3 = true ∧ idle.busyOf 3 = false ∧ demo.busyOf 3 = true :=
  ⟨idle_inv, demo_inv, by decide⟩

theorem wit_EdgeAtCountingGateway :
    demo.Inv ∧ isEdgeCount demo.cfg 4 = true ∧ cntMax demo.cfg 4 = none ∧ isEdgeCount demo.cfg 5 = true
      ∧ cntMax demo.cfg 5 = some (demo.cntOf 5) :=
  ⟨demo_inv, by decide⟩

theorem wit_MsiActsAsAnEdge :
    demo.Inv ∧ idle.Inv ∧ isEdgeIgnore demo.cfg 3 = true ∧ isEdgeCount demo.cfg 5 = true ∧ isLevel demo.cfg 1 = true :=
  ⟨demo_inv, idle_inv, by decide⟩

theorem wit_GatewaysNeverTakeARequestBack :
    demo.Inv ∧ isLevel demo.cfg 1 = true ∧ (∃ u, exec (.line 1 true) demo = .next u)
      ∧ (∃ u, exec (.line 1 false) demo = .next u) ∧ (∃ u, exec (.fwdL 1) demo = .next u)
      ∧ (∃ u, exec (.edgeI 3) demo = .next u) ∧ (∃ u, exec (.edgeC 4) demo = .next u)
      ∧ (∃ u, exec (.fwdC 4) demo = .next u) ∧ ∃ u, exec (.msi 3) demo = .next u :=
  ⟨demo_inv, by decide, next_of (by decide), next_of (by decide), next_of (by decide), next_of (by decide),
    next_of (by decide), next_of (by decide), next_of (by decide)⟩

theorem wit_OneRequestAtATime :
    (∃ u, exec (.fwdL 1) demo = .next u ∧ demo.reqQOf 1 < u.reqQOf 1 ∧ demo.busyOf 1 = false ∧ u.busyOf 1 = true)
      ∧ ∃ u, exec (.complete 0 0 2) (demoQ [.complete 0 2]) = .next u ∧ (demoQ [.complete 0 2]).busyOf 2 = true
          ∧ u.busyOf 2 = false :=
  ⟨⟨_, rfl, by decide⟩, ⟨_, rfl, by decide⟩⟩

theorem wit_LevelStillAssertedForwardsAgain :
    (demoQ [.complete 0 2]).Inv ∧ isLevel demoCfg 2 = true ∧ (demoQ [.complete 0 2]).ieOf 0 2 = true
      ∧ ((demoQ [.complete 0 2]).inQOf 0).head? = some (.complete 0 2) ∧ (demoQ [.complete 0 2]).lineOf 2 = true :=
  ⟨demoQ_inv _ (by decide), by decide⟩

theorem wit_WritePriority :
    (∀ s w, isSource demoCfg s = true → (demoQ [.wprio s w]).Inv)
      ∧ (∀ s w, ((demoQ [.wprio s w]).inQOf 0).head? = some (.wprio s w))
      ∧ prioVar demoCfg 6 = 0 ∧ prioOne demoCfg 1 = 0 ∧ demo.active 0 1 = false ∧ demo.active 0 3 = true
      ∧ demo.thrOf 0 < legalPrio demoCfg 3 5 :=
  ⟨fun s w h => demoQ_inv _ (by simp [msgInRange, h]), fun _ _ => rfl, by decide⟩

theorem wit_WriteEnables :
    (demoQ [.wie 0 0 0, .complete 0 2]).Inv
      ∧ ((demoQ [.wie 0 0 0, .complete 0 2]).inQOf 0).head? = some (.wie 0 0 0)
      ∧ ieKind demoCfg 0 1 = .rw ∧ ieKind demoCfg 0 3 = .rw ∧ ieKind demoCfg 1 2 = .hard0
      ∧ look (.wie 0 0 0 0) (demoQ [.wie 0 0 0, .complete 0 2]) (fun u => (u.ieOf 0 2, (u.inQOf 0).head?))
          = some (false, some (.complete 0 2)) :=
  ⟨demoQ_inv _ (by decide), by decide⟩

theorem wit_WriteThreshold :
    (demoQ [.wthr 0 9]).Inv ∧ ((demoQ [.wthr 0 9]).inQOf 0).head? = some (.wthr 0 9) ∧ (demoQ [.wthr 1 7]).Inv
      ∧ ((demoQ [.wthr 1 7]).inQOf 0).head? = some (.wthr 1 7) ∧ thrVar demoCfg 1 = 0 :=
  ⟨demoQ_inv _ (by decide), by decide, demoQ_inv _ (by decide), by decide⟩

theorem wit_ReadsOfPriorityAndThreshold :
    (demoQ [.rprio 6]).Inv ∧ ((demoQ [.rprio 6]).inQOf 0).head? = some (.rprio 6) ∧ (demoQ [.rthr 1]).Inv
      ∧ ((demoQ [.rthr 1]).inQOf 0).head? = some (.rthr 1) :=
  ⟨demoQ_inv _ (by decide), by decide, demoQ_inv _ (by decide), by decide⟩

theorem wit_ReadsOfPackedBits :
    (demoQ [.rie 1 1]).Inv ∧ ((demoQ [.rie 1 1]).inQOf 0).head? = some (.rie 1 1) ∧ (demoQ [.rip 0]).Inv
      ∧ ((demoQ [.rip 0]).inQOf 0).head? = some (.rip 0) :=
  ⟨demoQ_inv _ (by decide), by decide, demoQ_inv _ (by decide), by decide⟩

theorem wit_OnlyWritesChangePrioritiesAndEnables :
    (∃ u, exec (.wprio 0 1 3) (demoQ [.wprio 1 3]) = .next u ∧ u.prioOf 1 ≠ (demoQ [.wprio 1 3]).prioOf 1)
      ∧ (∃ u, exec (.wie 0 0 0 0) (demoQ [.wie 0 0 0]) = .next u ∧ u.ieOf 0 1 ≠ (demoQ [.wie 0 0 0]).ieOf 0 1)
      ∧ (∃ u, exec (.wthr 0 0 7) (demoQ [.wthr 0 7]) = .next u ∧ u.thrOf 0 ≠ (demoQ [.wthr 0 7]).thrOf 0)
      ∧ (∃ u, exec (.notify 1 true) demo = .next u ∧ u.notifOf 1 ≠ demo.notifOf 1) ∧ demo.cfg.notifyModel ≠ .wire
      ∧ demo.Inv ∧ (demoQ [.wprio 1 3]).Inv ∧ (demoQ [.wie 0 0 0]).Inv ∧ (demoQ [.wthr 0 7]).Inv :=
  ⟨⟨_, rfl, by decide⟩, ⟨_, rfl, by decide⟩, ⟨_, rfl, by decide⟩, ⟨_, rfl, by decide⟩, by decide, demo_inv,
    demoQ_inv _ (by decide), demoQ_inv _ (by decide), demoQ_inv _ (by decide)⟩

theorem wit_RegisterAccessesKeepPendingAndGateways :
    (∀ m, m ∈ [Msg.wprio 1 0, .wie 0 0 0, .wthr 0 7, .rprio 1, .rie 0 0, .rthr 0, .rip 0] →
      (demoQ [m]).Inv ∧ ∃ u, exec (processing 0 m) (demoQ [m]) = .next u) ∧ demo.cfg.notifyModel ≠ .wire := by
  refine ⟨?_, by decide⟩
  have key : ∀ m, m ∈ [Msg.wprio 1 0, .wie 0 0 0, .wthr 0 7, .rprio 1, .rie 0 0, .rthr 0, .rip 0] →
      [m].all (msgInRange demoCfg) = true ∧ (next? (exec (processing 0 m) (demoQ [m]))).isSome = true := by decide
  exact fun m hm => ⟨demoQ_inv _ (key m hm).1, next_of (key m hm).2⟩

theorem wit_RepeatedWritesAreIdempotent :
    (demoQ [.wie 0 0 5, .wie 0 0 5]).Inv ∧ enabled (demoQ [.wie 0 0 5, .wie 0 0 5]) (.wie 0 0 0 5) = true
      ∧ ∃ u v, exec (.wie 0 0 0 5) (demoQ [.wie 0 0 5, .wie 0 0 5]) = .next u ∧ exec (.wie 0 0 0 5) u = .next v :=
  ⟨demoQ_inv _ (by decide), by decide, _, _, rfl, rfl⟩

theorem wit_AcceptLatchesTheRequest :
    demo.Inv ∧ (isSource demo.cfg 4 = true ∧ demo.reqQOf 4 > 0 ∧ demo.ipOf 4 = false ∧ isEdgeCount demo.cfg 4 = true)
      ∧ (isSource demo.cfg 1 = true ∧ demo.reqQOf 1 > 0 ∧ demo.ipOf 1 = false ∧ isEdgeCount demo.cfg 1 = false)
      ∧ demo.ipOf 2 = true ∧ demo.ieOf 1 4 = true ∧ demo.prioOf 4 > demo.thrOf 1 :=
  ⟨demo_inv, by decide⟩

theorem wit_ClaimReturnsAndClearsTheBest :
    (demoQ [.claim 0]).Inv ∧ ((demoQ [.claim 0]).inQOf 0).head? = some (.claim 0) ∧ (demoQ [.claim 0]).best 0 = 2
      ∧ (a0 [.claim 1]).best 1 = 0 ∧ ((a0 [.claim 1]).inQOf 0).head? = some (.claim 1) :=
  ⟨demoQ_inv _ (by decide), by decide⟩

theorem wit_EipAfterAClaim :
    (demoQ [.claim 1]).Inv ∧ enabled (demoQ [.claim 1]) (.claim 0 1) = true
      ∧ ∃ u, exec (.claim 0 1) (demoQ [.claim 1]) = .next u :=
  ⟨demoQ_inv _ (by decide), by decide, next_of (by decide)⟩

theorem wit_CompletionReleasesTheGateway :
    (demoQ [.complete 0 2]).Inv ∧ ((demoQ [.complete 0 2]).inQOf 0).head? = some (.complete 0 2)
      ∧ (demoQ [.complete 0 2]).ieOf 0 2 = true ∧ (demoQ [.complete 1 2]).Inv
      ∧ ((demoQ [.complete 1 2]).inQOf 0).head? = some (.complete 1 2) ∧ (demoQ [.complete 1 2]).ieOf 1 2 = false :=
  ⟨demoQ_inv _ (by decide), by decide, by decide, demoQ_inv _ (by decide), by decide⟩

theorem wit_ResponsesAreDeliveredInOrder : demo.Inv ∧ demo.outQOf 0 = .cresp 2 :: [.rresp 5] := ⟨demo_inv, by decide⟩

theorem wit_OnlyAcceptSetsAndClaimClearsPending :
    (∃ u, exec (.accept 4) demo = .next u ∧ demo.ipOf 4 = false ∧ u.ipOf 4 = true)
      ∧ (∃ u, exec (.claim 0 0) (demoQ [.claim 0]) = .next u ∧ (demoQ [.claim 0]).ipOf 2 = true ∧ u.ipOf 2 = false)
      ∧ (∃ u, exec (.rip 0 0) (demoQ [.rip 0]) = .next u) ∧ enabled (demoQ [.rip 0]) (.rip 0 0) = true :=
  ⟨⟨_, rfl, by decide⟩, ⟨_, rfl, by decide⟩, next_of (by decide), by decide⟩

theorem wit_NoRequestIsClaimedTwice :
    (demoQ [.claim 0]).Inv ∧ enabled (demoQ [.claim 0]) (.claim 0 0) = true ∧ (demoQ [.claim 0]).best 0 ≠ 0
      ∧ (∃ u, exec (.claim 0 0) (demoQ [.claim 0]) = .next u)
      ∧ (onBus (.action [0b00001000, 1])).Inv ∧ (onBus (.action [0b00001000, 1])).ipOf 1 = false
      ∧ (∃ u, step (onBus (.action [0b00001000, 1])) = .next u)
      ∧ firing? (onBus (.action [0b00001000, 1])) (onBus (.action [0b00001000, 1])).nextEvent = some (.fwdL 1)
      ∧ demo.ipOf 4 = false :=
  ⟨demoQ_inv _ (by decide), by decide, by decide, next_of (by decide), onBus_inv _, by decide, next_of (by decide),
    by rfl, by decide⟩

theorem wit_AcceptedInterruptsAreMulticast :
    (demoQ [.claim 1]).Inv ∧ enabled (demoQ [.claim 1]) (.accept 4) = true
      ∧ (demo.ieOf 1 4 = true ∧ demo.prioOf 4 > demo.thrOf 1) ∧ ¬ demo.prioOf 4 > demo.thrOf 0
      ∧ look (.accept 1) (demoQ [.claim 1]) (fun u => (enabled u (.claim 0 1), u.best 1)) = some (true, 1) :=
  ⟨demoQ_inv _ (by decide), by decide⟩

theorem wit_TargetsAreIndependent :
    (demoQ [.wie 0 0 0]).Inv ∧ (∃ u, exec (.wie 0 0 0 0) (demoQ [.wie 0 0 0]) = .next u) ∧ (demoQ [.wthr 0 7]).Inv
      ∧ ∃ u, exec (.wthr 0 0 7) (demoQ [.wthr 0 7]) = .next u :=
  ⟨demoQ_inv _ (by decide), next_of (by decide), demoQ_inv _ (by decide), next_of (by decide)⟩

theorem wit_NotifyShowsAPastValue :
    (demoN .sample).Inv ∧ (demoN .anyPast).Inv ∧ (demoN .wire).Inv ∧ isTarget demoCfg 1 = true
      ∧ (demoN .sample).eip 1 = true ∧ (demoN .anyPast).seen0Of 1 = true ∧ (demoN .anyPast).seen1Of 1 = true :=
  ⟨demoN_inv _, demoN_inv _, demoN_inv _, by decide⟩

theorem wit_SampleIsWithinAnyPast :
    (demoN .sample).Inv ∧ enabled (demoN .sample) (.notify 1 true) = true
      ∧ demoN .anyPast = { demoN .sample with cfg := { (demoN .sample).cfg with notifyModel := .anyPast } } :=
  ⟨demoN_inv _, by decide, rfl⟩

theorem wit_NotificationCanCatchUp : demo.Inv ∧ isTarget demo.cfg 1 = true ∧ demo.notifOf 1 ≠ demo.eip 1 :=
  ⟨demo_inv, by decide⟩

theorem wit_NotificationIsTheExternalPendingBit :
    isTarget Config.vectorsA 1 = true
      ∧ ∀ t, (Config.vectorsA.targets[t]?).map TargetCfg.kind = some (.hartContext 1 .m) ↔ t = 1 := by
  refine ⟨by decide, fun t => ?_⟩
  rcases t with _ | _ | t
  · decide
  · decide
  · simp [Config.vectorsA]

theorem wit_ActionsFireExactlyWhenEnabled :
    enabled demo (.fwdL 1) = true ∧ (Instr.wf demo.cfg (.fwdL 2) = true ∧ enabled demo (.fwdL 2) = false)
      ∧ Instr.wf demo.cfg (.fwdL 3) = false := by decide

theorem wit_HeadOfQueueIsProcessed :
    (demoQ [.complete 1 2, .claim 0]).Inv ∧ (demoQ [.complete 1 2, .claim 0]).inQOf 0 = .complete 1 2 :: [.claim 0]
      ∧ Msg.claim 0 ≠ .complete 1 2 :=
  ⟨demoQ_inv _ (by decide), by decide⟩

theorem wit_QuiescentStatesAwaitTheEnvironment :
    quiet.Inv ∧ quiet.Quiescent ∧ enabled quiet (.line 1 true) = true ∧ enabled quiet (.notify 0 false) = true
      ∧ quiet.NothingStale ∧ Instr.wf quiet.cfg (.notify 0 false) = true ∧ Instr.wf quiet.cfg (.accept 1) = true
      ∧ quietSample.Inv ∧ quietSample.Quiescent ∧ quietSample.cfg.notifyModel ≠ .anyPast := by
  refine ⟨quiet_inv, quiet_quiescent, by decide, by decide, fun t v ht hn => ?_, by decide, by decide, quietSample_inv,
    quietSample_quiescent, by decide⟩
  have key : ∀ t, t < 2 → ∀ v, canNotify quiet t v = true → v = quiet.eip t := by decide
  exact key t ((isTarget_iff _ _).1 ht) v hn

theorem wit_CompletionWithoutClaimLosesNothing :
    (demoQ [.complete 0 2, .claim 0]).Inv ∧ (isLevel demoCfg 2 = true ∧ demo.lineOf 2 = true ∧ demo.ipOf 2 = true
      ∧ demo.ieOf 0 2 = true ∧ ((demoQ [.complete 0 2, .claim 0]).inQOf 0).head? = some (.complete 0 2))
      ∧ ∃ u v x, exec (.complete 0 0 2) (demoQ [.complete 0 2, .claim 0]) = .next u ∧ exec (.fwdL 2) u = .next v
        ∧ exec (.claim 0 0) v = .next x ∧ enabled v (.claim 0 0) = true ∧ v.best 0 = 2 :=
  ⟨demoQ_inv _ (by decide), by decide, _, _, _, rfl, rfl, rfl, by decide⟩

/-- Source 1 of the demonstration configuration enabled for target 0 and about to be asserted. -/
def before : State :=
  { quiet with
    ie := [[true, false, false, false, false, true], [false, false, false, false, false, false]]
    prio := [5, 1, 0, 0, 0, 1]
    inQ := [[.claim 0, .complete 0 1], []] }

theorem before_inv : before.Inv := by
  constructor
  case shape => constructor <;> decide
  all_goals decide

theorem wit_InterruptFlowFromSourceToCompletion :
    before.Inv ∧ before.cfg.notifyModel ≠ .wire ∧ isLevel before.cfg 1 = true ∧ isTarget before.cfg 0 = true
      ∧ before.busyOf 1 = false ∧ before.reqQOf 1 = 0 ∧ before.ipOf 1 = false ∧ before.ieOf 0 1 = true
      ∧ before.prioOf 1 > before.thrOf 0 ∧ (∀ s, s ≠ 1 → before.elig 0 s = true → before.better 1 s = true)
      ∧ before.inQOf 0 = .claim 0 :: .complete 0 1 :: [] ∧ before.outQOf 0 = [] := by
  refine ⟨before_inv, by decide, by decide, by decide, by decide, by decide, by decide, by decide, by decide, ?_, by decide,
    by decide⟩
  intro s _ he
  rcases s with _ | _ | _ | _ | _ | _ | _ | s <;> cases he

/-! A fair execution: a threshold is written once, and then nothing but notifications happens. -/

def fairRun : Nat → State
  | 0 => { quiet with inQ := [[.wthr 0 0], []] }
  | _ + 1 => quiet

def fairChoice : Nat → Event
  | 0 => .action [0b00100100, 0, 0, 0]
  | n + 1 => .action [0b01001000, BitVec.ofNat 8 (n % 2)]

theorem fair_execution : Execution fairRun fairChoice := by
  intro n
  match n with
  | 0 => rfl
  | n + 1 =>
    rcases Nat.mod_two_eq_zero_or_one n with h | h <;> simp only [fairRun, fairChoice, h] <;> rfl

theorem quiet_head (r : Nat) (m : Msg) : quiet.headIs r m = false := by
  rcases r with _ | _ | r <;> rfl

theorem quiet_due (i : Instr) (h : Due quiet i) : ∃ t, t < 2 ∧ i = .notify t false := by
  obtain ⟨henv, hen, hv⟩ := h
  simp only [enabled, Bool.and_eq_true] at hen
  cases i with
  | notify t v =>
    have ht := (isTarget_iff _ _).1 (Bool.and_eq_true_iff.1 hen.1).1
    refine ⟨t, ht, ?_⟩
    have key : ∀ t, t < 2 → quiet.eip t = false := by decide
    rw [hv t v rfl, key t ht]
  | line s b => cases henv
  | edgeI s => cases henv
  | edgeC s => cases henv
  | msi s => cases henv
  | fwdL s => rcases s with _ | _ | _ | _ | _ | _ | _ | s <;> cases hen.2
  | fwdC s => rcases s with _ | _ | _ | _ | _ | _ | _ | s <;> cases hen.2
  | accept s => rcases s with _ | _ | _ | _ | _ | _ | _ | s <;> cases hen.2
  | resp r => rcases r with _ | _ | r <;> cases hen.2
  | wprio r s w => exact absurd hen.2 (by simp [quiet_head])
  | wie r t k w => exact absurd hen.2 (by simp [quiet_head])
  | wthr r t w => exact absurd hen.2 (by simp [quiet_head])
  | rprio r s => exact absurd hen.2 (by simp [quiet_head])
  | rie r t k => exact absurd hen.2 (by simp [quiet_head])
  | rthr r t => exact absurd hen.2 (by simp [quiet_head])
  | rip r k => exact absurd hen.2 (by simp [quiet_head])
  | claim r t => exact absurd hen.2 (by simp [quiet_head])
  | complete r t s => exact absurd hen.2 (by simp [quiet_head])

/-- An action that fires is enabled. -/
theorem firing_enabled {st : State} {e : Event} {i : Instr} (h : firing? st e = some i) : enabled st i = true := by
  unfold firing? at h
  split at h
  · split at h
    · split at h
      · rename_i hen
        cases h
        exact hen
      · cases h
    · cases h
  all_goals cases h

theorem fair_fair : Fair fairRun fairChoice where
  weak := by
    intro i n hdue
    obtain ⟨t, ht, rfl⟩ := quiet_due i (hdue (n + 1) (Nat.le_succ n))
    refine ⟨2 * n + t + 1, by omega, ?_⟩
    have hmod : (2 * n + t) % 2 = t := by omega
    match t, ht with
    | 0, _ => exact congrArg (fun x => firing? quiet (.action [0b01001000, BitVec.ofNat 8 x])) hmod
    | 1, _ => exact congrArg (fun x => firing? quiet (.action [0b01001000, BitVec.ofNat 8 x])) hmod
  staleStops := by
    intro t n _
    refine ⟨1, fun k hk v hf => ?_⟩
    obtain ⟨j, rfl⟩ : ∃ j, k = j + 1 := ⟨k - 1, by omega⟩
    have hen := firing_enabled hf
    have ht : t < 2 := (isTarget_iff _ _).1 (Bool.and_eq_true_iff.1 (Bool.and_eq_true_iff.1 hen).1).1
    have key : ∀ t, t < 2 → ∀ v, enabled quiet (.notify t v) = true → v = quiet.eip t := by decide
    exact key t ht v hen

theorem fair_start : (fairRun 0).Inv := by
  constructor
  case shape => constructor <;> decide
  all_goals decide

theorem wit_FairExecutionsDeliverEip :
    (fairRun 0).Inv ∧ Execution fairRun fairChoice ∧ Fair fairRun fairChoice
      ∧ ∀ m, 0 ≤ m → SameCore (fairRun 0) (fairRun m) :=
  ⟨fair_start, fair_execution, fair_fair, fun m _ => by cases m <;> exact ⟨rfl, rfl, rfl, rfl⟩⟩

theorem wit_FairExecutionsServeEveryMessage :
    (fairRun 0).Inv ∧ Execution fairRun fairChoice ∧ Fair fairRun fairChoice
      ∧ (fairRun 0).inQOf 0 = .wthr 0 0 :: [] :=
  ⟨fair_start, fair_execution, fair_fair, rfl⟩

/-! An execution that follows the protocol: one interrupt of source 1, claimed and completed; then notifications only. -/

def flowChoice : Nat → Event
  | 0 => .action [0b00000101, 1]
  | 1 => .action [0b00001000, 1]
  | 2 => .action [0b00111000, 1]
  | 3 => .action [0b00111100, 0, 0]
  | 4 => .action [0b01000000, 0, 0, 1]
  | _ + 5 => .action [0b01001000, 0]

def flowRun : Nat → State
  | 0 => before
  | n + 1 => (next? (step { flowRun n with agenda := [flowChoice n] })).getD before

theorem flow_end (n : Nat) : flowRun (n + 5) = flowRun 5 := by
  induction n with
  | zero => rfl
  | succ n ih =>
    show (next? (step { flowRun (n + 5) with agenda := [.action [0b01001000, 0]] })).getD before = flowRun 5
    rw [ih]
    rfl

theorem flow_execution : Execution flowRun flowChoice := by
  intro n
  match n with
  | 0 => rfl
  | 1 => rfl
  | 2 => rfl
  | 3 => rfl
  | 4 => rfl
  | n + 5 =>
    show step { flowRun (n + 5) with agenda := [.action [0b01001000, 0]] } = .next (flowRun (n + 1 + 5))
    rw [flow_end n, flow_end (n + 1)]
    rfl

theorem flow_protocol : FollowsProtocol flowRun flowChoice := by
  intro n r t s hf
  match n with
  | 0 => cases hf
  | 1 => cases hf
  | 2 => cases hf
  | 3 => cases hf
  | 4 =>
    have h4 : firing? (flowRun 4) (flowChoice 4) = some (.complete 0 0 1) := by rfl
    have hi : Instr.complete 0 0 1 = .complete r t s := Option.some.inj (h4.symm.trans hf)
    cases hi
    decide
  | n + 5 =>
    have h5 : firing? (flowRun (n + 5)) (flowChoice (n + 5)) = some (.notify 0 false) := by
      rw [flow_end]
      rfl
    exact absurd (Option.some.inj (h5.symm.trans hf)) (by intro hi; cases hi)

theorem wit_ProtocolKeepsOneRequestPerSource :
    (flowRun 0).Inv ∧ Execution flowRun flowChoice ∧ FollowsProtocol flowRun flowChoice
      ∧ (∀ s, (flowRun 0).busyOf s = false ∧ (flowRun 0).reqQOf s = 0 ∧ (flowRun 0).ipOf s = false)
      ∧ outstanding flowRun flowChoice 1 4 = 1 ∧ (flowRun 4).busyOf 1 = true ∧ (flowRun 5).busyOf 1 = false := by
  refine ⟨before_inv, flow_execution, flow_protocol, fun s => ?_, by decide⟩
  rcases s with _ | _ | _ | _ | _ | _ | _ | s <;> exact ⟨rfl, rfl, rfl⟩

theorem wit_BusValuesAreLittleEndian :
    0 < 4 ∧ 3 < 4 ∧ 1 < ([0x34, 0x12] : List Byte).length ∧ leBytes 2 0x51234 = [0x34, 0x12]
      ∧ (Resp.rresp 0x1234).dataBytes 2 = [0x34, 0x12] := by decide

/-! Configurations at the ends of the reference map's ranges. -/

/-- `n` sources and `m` targets on the reference map. -/
def sized (n m : Nat) : Cfg :=
  { Config.vectorsA with
    sources := List.replicate n ⟨.level, 0, 7⟩
    targets := List.replicate m ⟨.other, 7, List.replicate n .rw⟩ }

theorem sized_wf (n m : Nat) (hn : n ≤ 1023) (hm : m ≤ 15872) :
    (sized n m).wf = true ∧ numSources (sized n m) = n ∧ numTargets (sized n m) = m := by
  have wfSource : SourceCfg.wf 3 ⟨.level, 0, 7⟩ = true := by decide
  simp [Cfg.wf, sized, Config.vectorsA, wfSource, RegMap.wf, TargetCfg.wf, numSources, numTargets, hn, hm]

theorem wit_ReferenceMapReachesEachRegister :
    ((sized 1023 1).wf = true ∧ (sized 1023 1).regMap = .reference 0x0C000000 ∧ isSource (sized 1023 1) 1023 = true
        ∧ isSource (sized 1023 1) 1 = true ∧ isPackedReg (sized 1023 1) 31 = true ∧ isTarget (sized 1023 1) 0 = true)
      ∧ (sized 0 15872).wf = true ∧ (sized 0 15872).regMap = .reference 0x0C000000
      ∧ isTarget (sized 0 15872) 15871 = true ∧ isPackedReg (sized 0 15872) 0 = true := by
  have g1 : (sized 1023 1).g = 32 := rfl
  have a := sized_wf 1023 1 (by omega) (by omega)
  have b := sized_wf 0 15872 (by omega) (by omega)
  refine ⟨⟨a.1, rfl, ?_, ?_, ?_, ?_⟩, b.1, rfl, ?_, ?_⟩ <;> simp [isSource, isTarget, isPackedReg, a.2.1, a.2.2, b.2.2, g1]

/-- Addresses of no register: ID 0, the ID after the last, the target after the last, the gap after the last page, and the
first word outside the window. -/
theorem wit_ReferenceMapReachesEachRegister_elsewhere (addr : Nat)
    (h : addr ∈ [0x0C000000, 0x0C000014, 0x0C202000, 0x0C200008, 0x10000000]) :
    addr % 4 = 0 ∧ (∀ s, isSource Config.vectorsA s = true → addr ≠ 0x0C000000 + 4 * s)
      ∧ (∀ k, isPackedReg Config.vectorsA k = true → addr ≠ 0x0C000000 + 0x1000 + 4 * k
          ∧ ∀ t, isTarget Config.vectorsA t = true → addr ≠ 0x0C000000 + 0x2000 + 0x80 * t + 4 * k)
      ∧ ∀ t, isTarget Config.vectorsA t = true →
          addr ≠ 0x0C000000 + 0x200000 + 0x1000 * t ∧ addr ≠ 0x0C000000 + 0x200004 + 0x1000 * t := by
  have hn : numSources Config.vectorsA = 4 := rfl
  have ht : numTargets Config.vectorsA = 2 := rfl
  have hg : Config.vectorsA.g = 32 := rfl
  simp only [isSource_iff, isTarget_iff, isPackedReg, decide_eq_true_eq, hn, ht, hg]
  simp only [List.mem_cons, List.not_mem_nil, or_false] at h
  refine ⟨by omega, fun s hs => by omega, fun k hk => ⟨by omega, fun t ht => by omega⟩, fun t ht => by omega⟩

theorem wit_AccessesBecomeMessagesOfTheirKind :
    busReadMeaning Config.vectorsA 0x0C201004 4 = .message (.claim 1)
      ∧ busWriteMeaning Config.vectorsA 0x0C201004 4 4 = .message (.complete 1 4)
      ∧ accessFits Config.vectorsA.regMap 0x0C000002 4 = false ∧ accessFits Config.vectorsA.regMap 0x0C001000 4 = true
      ∧ writePort? Config.vectorsA.regMap 0x0C001000 = none ∧ readPort? Config.vectorsA.regMap 0x10000000 = none := by
  decide

/-- A listed map of two-byte registers under a protection that grants regions of 8 bytes. -/
def listedMap : RegMap :=
  .table 2 8 [(0, .claim 0), (2, .thr 0), (8, .claim 1), (16, .prio 1), (24, .ie 0 0), (26, .ip 0)]
    [(0, .complete 0), (2, .thr 0), (8, .complete 1), (16, .prio 1), (24, .ie 0 0)]

/-- `CFG-A` with registers of 8 packed bits on the listed map. -/
def listed : Cfg := { Config.vectorsA with g := 8, regMap := listedMap }

theorem wit_ReferenceMapSeparatesTargets :
    (Config.vectorsA.wf = true ∧ Config.vectorsA.regMap = .reference 0x0C000000
      ∧ busReadMeaning Config.vectorsA 0x0C201004 4 = .message (.claim 1)
      ∧ busWriteMeaning Config.vectorsA 0x0C201004 4 2 = .message (.complete 1 2)
      ∧ busWriteMeaning Config.vectorsA 0x0C201000 4 3 = .message (.wthr 1 3) ∧ 0x0C201004 / 4096 = 0x0C201000 / 4096)
      ∧ listed.wf = true
      ∧ listed.regMap = .table 2 8 [(0, .claim 0), (2, .thr 0), (8, .claim 1), (16, .prio 1), (24, .ie 0 0), (26, .ip 0)]
          [(0, .complete 0), (2, .thr 0), (8, .complete 1), (16, .prio 1), (24, .ie 0 0)]
      ∧ busReadMeaning listed 0 2 = .message (.claim 0) ∧ busWriteMeaning listed 2 2 3 = .message (.wthr 0 3)
      ∧ 0 / 8 = 2 / 8 := by
  decide

end Sys2Proof.Tests
end

section
/-! PROOFS. The derived functions of the core state (spec/10_state.md R37 to R40, R43) and what changes a pending bit
(R25): the laws first, then the statements they settle. -/

namespace Sys2Proof.Proofs

open Sys2Proof Sys2Proof.Machine

/-! The legalised enable bit, one equation for each kind of bit. -/

theorem legalIE_rw {c : Cfg} {t s : Nat} (h : ieKind c t s = .rw) (b old : Bool) : legalIE c t s b old = b := by
  simp only [legalIE, h]

theorem legalIE_hard0 {c : Cfg} {t s : Nat} (h : ieKind c t s = .hard0) (b old : Bool) :
    legalIE c t s b old = false := by
  simp only [legalIE, h]

theorem legalIE_hard1 {c : Cfg} {t s : Nat} (h : ieKind c t s = .hard1) (b old : Bool) :
    legalIE c t s b old = true := by
  simp only [legalIE, h]

/-- Settles O17: one case for each kind of enable bit. -/
theorem legalEnableBit : Obligations.LegalEnableBit := fun _ _ _ b old =>
  ⟨fun h => legalIE_rw h b old, fun h => legalIE_hard0 h b old, fun h => legalIE_hard1 h b old⟩

/-! `better` is a strict total order. -/

theorem better_iff (st : State) (s1 s2 : Nat) :
    st.better s1 s2 = true ↔ st.prioOf s1 > st.prioOf s2 ∨ (st.prioOf s1 = st.prioOf s2 ∧ s1 < s2) := by
  simp only [State.better, decide_eq_true_eq]

theorem better_iff_not_better {st : State} {s1 s2 : Nat} (h : s1 ≠ s2) :
    st.better s1 s2 = true ↔ ¬ st.better s2 s1 = true := by
  rw [better_iff, better_iff]
  omega

theorem better_trans {st : State} {s1 s2 s3 : Nat} (h12 : st.better s1 s2 = true) (h23 : st.better s2 s3 = true) :
    st.better s1 s3 = true := by
  rw [better_iff] at *
  omega

/-! `best(t)` is the maximum of that order. -/

/-- There is no source 0, so it is never eligible: 0 is free to stand for "none". -/
theorem ne_zero_of_elig {st : State} {t s : Nat} (h : st.elig t s = true) : s ≠ 0 := by
  rintro rfl
  simp [State.elig, State.active, State.ipOf, at1] at h

/-- `b` is the best eligible one of the sources `l`, or 0 where none of them is eligible. -/
def IsBestAmong (st : State) (t : Nat) (l : List Nat) (b : Nat) : Prop :=
  (b = 0 ∧ ∀ s ∈ l, st.elig t s = false)
    ∨ (b ∈ l ∧ st.elig t b = true ∧ ∀ s ∈ l, st.elig t s = true → s ≠ b → st.better b s = true)

/-- Weighing one more source against the best so far keeps the best. -/
theorem IsBestAmong.bestStep {st : State} {t : Nat} {l : List Nat} {b : Nat} (h : IsBestAmong st t l b) (x : Nat) :
    IsBestAmong st t (l ++ [x]) (st.bestStep t b x) := by
  unfold State.bestStep IsBestAmong
  simp only [List.mem_append, List.mem_singleton, or_imp, forall_and, forall_eq]
  by_cases hx : st.elig t x = true
  case neg =>
    rw [if_neg hx]
    obtain ⟨hb, hnone⟩ | ⟨hb, hel, hall⟩ := h
    · exact .inl ⟨hb, hnone, Bool.eq_false_iff.2 hx⟩
    · exact .inr ⟨.inl hb, hel, hall, fun h => absurd h hx⟩
  case pos =>
    rw [if_pos hx]
    obtain ⟨hb, hnone⟩ | ⟨hb, hel, hall⟩ := h
    · rw [if_pos (.inl hb)]
      exact .inr ⟨.inr rfl, hx, fun s hs he => by simp [hnone s hs] at he, fun _ hne => absurd rfl hne⟩
    · by_cases hbetter : st.better x b = true
      · rw [if_pos (.inr hbetter)]
        refine .inr ⟨.inr rfl, hx, fun s hs he _ => ?_, fun _ hne => absurd rfl hne⟩
        by_cases hsb : s = b
        · exact hsb ▸ hbetter
        · exact better_trans hbetter (hall s hs he hsb)
      · rw [if_neg (not_or.2 ⟨ne_zero_of_elig hel, hbetter⟩)]
        exact .inr ⟨.inl hb, hel, hall, fun _ hne => (better_iff_not_better hne.symm).2 hbetter⟩

theorem foldl_bestStep_isBestAmong (st : State) (t : Nat) (l : List Nat) :
    IsBestAmong st t l (l.foldl (st.bestStep t) 0) := by
  induction l using List.reverseRecOn with
  | nil => exact .inl ⟨rfl, by simp⟩
  | append_singleton l x ih =>
    rw [List.foldl_append]
    exact ih.bestStep x

/-- What `best(t)` is, in one of its two cases (spec/10_state.md R39). -/
theorem best_cases (st : State) (t : Nat) :
    (st.best t = 0 ∧ ∀ s, isSource st.cfg s = true → st.elig t s = false)
      ∨ (isSource st.cfg (st.best t) = true ∧ st.elig t (st.best t) = true
        ∧ ∀ s, isSource st.cfg s = true → st.elig t s = true → s ≠ st.best t → st.better (st.best t) s = true) := by
  have h : IsBestAmong st t (sourceIds st.cfg) (st.best t) := foldl_bestStep_isBestAmong st t _
  simpa only [IsBestAmong, mem_sourceIds] using h

theorem best_eq_zero_iff (st : State) (t : Nat) :
    st.best t = 0 ↔ ∀ s, isSource st.cfg s = true → st.elig t s = false := by
  obtain ⟨hzero, hnone⟩ | ⟨hsrc, hel, -⟩ := best_cases st t
  · exact ⟨fun _ => hnone, fun _ => hzero⟩
  · exact ⟨fun hzero => absurd hzero (ne_zero_of_elig hel), fun hnone => by simp [hnone _ hsrc] at hel⟩

/-- Settles O13: `better` is arithmetic on priorities and IDs, and `best(t)` is a maximum found by one pass over the
sources, whose invariant is `IsBestAmong`. -/
theorem bestIsTheBestEligibleSource : Obligations.BestIsTheBestEligibleSource :=
  ⟨fun st s1 s2 => ⟨better_iff st s1 s2, better_iff_not_better, fun _ => better_trans⟩,
    fun st t => ⟨best_eq_zero_iff st t, fun hne => (best_cases st t).resolve_left fun h => hne h.1⟩⟩

/-! `EIP(t)`. -/

theorem eip_iff (st : State) (t : Nat) :
    st.eip t = true ↔
      ∃ s, isSource st.cfg s = true ∧ st.ipOf s = true ∧ st.ieOf t s = true ∧ st.prioOf s > st.thrOf t := by
  simp only [State.eip, List.any_eq_true, mem_sourceIds, State.active, Bool.and_eq_true, decide_eq_true_eq, and_assoc]

/-- Settles O14: `EIP(t)` is a search over the sources that reads the core state alone. -/
theorem eipIsCombinational : Obligations.EipIsCombinational :=
  ⟨eip_iff, fun _ _ t hcfg hip hie hprio hthr => eip_of_fields hcfg hip hie hprio hthr t⟩

/-! What an action does to the pending bits. -/

theorem fire_ip {ok guard : Bool} {eff st u : State} (h : fire ok guard eff st = .next u) (heff : eff.ip = st.ip) :
    u.ip = st.ip := by
  obtain ⟨-, ⟨-, rfl⟩ | ⟨-, rfl⟩⟩ := fire_next h
  · exact heff
  · rfl

theorem edgeIgnored_ip (s : Nat) (st : State) : (edgeIgnored s st).ip = st.ip := by
  obtain ⟨-, h⟩ | ⟨-, h⟩ := edgeIgnored_cases s st
  · rw [h]
  · rw [h]
    exact (forward_fields s st).2.2.1

theorem execMsi_ip {s : Nat} {st u : State} (h : execMsi s st = .next u) : u.ip = st.ip := by
  refine fire_ip h ?_
  split
  · exact edgeIgnored_ip s st
  · rfl

/-- ACCEPT waits, or sets the pending bit of its source and takes one of its requests (spec/42_claim_completion.md R150). -/
theorem execAccept_pending {s : Nat} {st u : State} (h : execAccept s st = .next u) :
    u.ip = st.ip
      ∨ (isSource st.cfg s = true ∧ 0 < st.reqQOf s ∧ u.ip = set1 st.ip s true
        ∧ u.reqQ = set1 st.reqQ s (st.reqQOf s - 1)) := by
  obtain ⟨hsrc, ⟨hguard, rfl⟩ | ⟨-, rfl⟩⟩ := fire_next h
  · obtain ⟨hreqQ, hip, -⟩ := accepted_fields s st
    simp only [canAccept, Bool.and_eq_true, decide_eq_true_eq] at hguard
    exact .inr ⟨hsrc, hguard.1, hip, hreqQ⟩
  · exact .inl rfl

/-- CLAIM changes no pending bit, or clears that of the best source (spec/42_claim_completion.md R152). -/
theorem execClaim_pending {r t : Nat} {st u : State} (h : execClaim r t st = .next u) :
    u.ip = st.ip ∨ u.ip = set1 st.ip (st.best t) false := by
  obtain ⟨-, ⟨-, rfl⟩ | ⟨-, rfl⟩⟩ := onMessage_next h
  · have hbest : (st.dequeueIn r).best t = st.best t := best_of_fields rfl rfl rfl rfl t
    obtain ⟨hip, -⟩ := claimed_fields r t (st.dequeueIn r)
    rw [hbest] at hip
    rw [State.settle_ip, hip]
    split
    · exact .inl rfl
    · exact .inr rfl
  · exact .inl rfl

theorem execComplete_ip {r t s : Nat} {st u : State} (h : execComplete r t s st = .next u) : u.ip = st.ip :=
  fire_ip h (completed_fields t s (st.dequeueIn r)).2.1

/-- All that an action can do to the pending bits: nothing, set the bit of a source it accepts, or clear the bit of the
source it claims (spec/10_state.md R25). -/
theorem exec_pending {i : Instr} {st u : State} (h : exec i st = .next u) :
    u.ip = st.ip
      ∨ (∃ s, i = .accept s ∧ isSource st.cfg s = true ∧ 0 < st.reqQOf s ∧ u.ip = set1 st.ip s true
        ∧ u.reqQ = set1 st.reqQ s (st.reqQOf s - 1))
      ∨ (∃ r t, i = .claim r t ∧ u.ip = set1 st.ip (st.best t) false) := by
  cases i with
  | accept s => exact (execAccept_pending h).imp_right fun hset => .inl ⟨s, rfl, hset⟩
  | claim r t => exact (execClaim_pending h).imp_right fun hclear => .inr ⟨r, t, rfl, hclear⟩
  | edgeI s => exact .inl (fire_ip h (edgeIgnored_ip s st))
  | msi s => exact .inl (execMsi_ip h)
  | complete r t s => exact .inl (execComplete_ip h)
  | line | fwdL | edgeC | fwdC | wprio | wie | wthr | rprio | rie | rthr | rip | resp | notify =>
    exact .inl (fire_ip h rfl)

theorem pending_set_by_accept {i : Instr} {st u : State} (hinv : st.Inv) (h : exec i st = .next u) {s : Nat}
    (hclear : st.ipOf s = false) (hset : u.ipOf s = true) : i = .accept s ∧ u.reqQOf s + 1 = st.reqQOf s := by
  unfold State.ipOf at hclear hset
  obtain hip | ⟨s', rfl, hsrc, hpos, hip, hreqQ⟩ | ⟨r, t, rfl, hip⟩ := exec_pending h
  · simp [hip, hclear] at hset
  · obtain ⟨hge, hle⟩ := (isSource_iff _ _).1 hsrc
    obtain rfl : s = s' := by
      by_contra hne
      simp [hip, at1_set1_ne _ _ _ _ _ hne, hclear] at hset
    have htaken : u.reqQOf s = st.reqQOf s - 1 := by
      unfold State.reqQOf at *
      rw [hreqQ, at1_set1_self _ _ _ _ hge (hinv.shape.reqQ ▸ hle)]
    exact ⟨rfl, by omega⟩
  · simp [hip, at1_set1, hclear] at hset

theorem pending_cleared_by_claim {i : Instr} {st u : State} (h : exec i st = .next u) {s : Nat}
    (hset : st.ipOf s = true) (hclear : u.ipOf s = false) : ∃ r t, i = .claim r t ∧ st.best t = s := by
  unfold State.ipOf at hclear hset
  obtain hip | ⟨s', rfl, -, -, hip, -⟩ | ⟨r, t, rfl, hip⟩ := exec_pending h
  · simp [hip, hset] at hclear
  · simp [hip, at1_set1, hset] at hclear
  · refine ⟨r, t, rfl, ?_⟩
    by_contra hne
    simp [hip, at1_set1_ne _ _ _ _ _ (Ne.symm hne), hset] at hclear

theorem register_write_ip {i : Instr} {st u : State} (h : exec i st = .next u) {r a b c : Nat}
    (hi : i = .wprio r a b ∨ i = .wie r a b c ∨ i = .wthr r a b) : u.ip = st.ip := by
  obtain rfl | rfl | rfl := hi <;> exact fire_ip h rfl

/-- An enabled RIP answers its requester the packed pending bits (spec/41_registers.md R138). -/
theorem execRip_answer {st u : State} {r k : Nat} (hinv : st.Inv) (h : execRip r k st = .next u)
    (hen : enabled st (.rip r k) = true) :
    u.outQOf r = st.outQOf r ++ [.rresp (packReg st.cfg st.ipOf k)] := by
  simp only [enabled, Instr.wf, Bool.and_eq_true] at hen
  obtain ⟨⟨hreq, -⟩, hhead⟩ := hen
  have hr : r < st.outQ.length := hinv.shape.outQ ▸ (isReq_iff _ _).1 hreq
  obtain ⟨-, ⟨-, rfl⟩ | ⟨hwaits, -⟩⟩ := onMessage_next h
  · exact (enqueueOut_outQOf (st.dequeueIn r) r r _ hr).trans (if_pos rfl)
  · simp [hhead] at hwaits

/-- Settles O41, clause by clause from `exec_pending`, and RIP's from its answer's bits. -/
theorem onlyAcceptSetsAndClaimClearsPending : Obligations.OnlyAcceptSetsAndClaimClearsPending := by
  intro st u i hinv h
  refine ⟨fun s => pending_set_by_accept hinv h, fun s => pending_cleared_by_claim h,
    fun r a b c => register_write_ip h, ?_⟩
  rintro r k rfl hen
  refine ⟨_, execRip_answer hinv h hen, fun j hj hsrc => ?_⟩
  simp [packReg_testBit, hj, hsrc]

end Sys2Proof.Proofs
end

section
/-! PROOFS. Requests (spec/40_gateways.md R110, R113, R117): all that an action can do to `busy` and `reqQ`, said once, and
the statements about gateways that follow from it. -/

namespace Sys2Proof.Proofs

open Sys2Proof Sys2Proof.Machine

/-- No gateway's `busy` bit and no number of waiting requests is changed. -/
def SameRequests (st u : State) : Prop := u.busy = st.busy ∧ u.reqQ = st.reqQ

/-- The idle gateway of source `s` has forwarded one request (spec/40_gateways.md R110). -/
structure Forwarded (s : Nat) (st u : State) : Prop where
  source : isSource st.cfg s = true
  idle : st.busyOf s = false
  busy : u.busy = set1 st.busy s true
  reqQ : u.reqQ = set1 st.reqQ s (st.reqQOf s + 1)

/-! Reading `busy` and `reqQ` afterwards. -/

theorem SameRequests.reads {st u : State} (h : SameRequests st u) (s : Nat) :
    u.busyOf s = st.busyOf s ∧ u.reqQOf s = st.reqQOf s := by
  obtain ⟨hbusy, hreqQ⟩ := h
  exact ⟨congrArg (at1 false · s) hbusy, congrArg (at1 0 · s) hreqQ⟩

theorem Forwarded.reads_self {s : Nat} {st u : State} (h : Forwarded s st u) (hshape : st.Shape) :
    u.busyOf s = true ∧ u.reqQOf s = st.reqQOf s + 1 := by
  obtain ⟨hge, hle⟩ := (isSource_iff _ _).1 h.source
  unfold State.busyOf State.reqQOf
  rw [h.busy, h.reqQ]
  exact ⟨at1_set1_self _ _ _ _ hge (hshape.busy ▸ hle), at1_set1_self _ _ _ _ hge (hshape.reqQ ▸ hle)⟩

theorem Forwarded.reads_ne {s s' : Nat} {st u : State} (h : Forwarded s st u) (hne : s' ≠ s) :
    u.busyOf s' = st.busyOf s' ∧ u.reqQOf s' = st.reqQOf s' := by
  unfold State.busyOf State.reqQOf
  rw [h.busy, h.reqQ]
  exact ⟨at1_set1_ne _ _ _ _ _ hne, at1_set1_ne _ _ _ _ _ hne⟩

/-- Accepting a request leaves no source with more waiting requests than before. -/
theorem reqQOf_le_of_accepted {s : Nat} {st u : State} (h : u.reqQ = set1 st.reqQ s (st.reqQOf s - 1)) (s' : Nat) :
    u.reqQOf s' ≤ st.reqQOf s' := by
  by_cases hs : s' = s
  · subst hs
    simp only [State.reqQOf, h, at1_set1]
    split <;> omega
  · simp only [State.reqQOf, h, at1_set1_ne _ _ _ _ _ hs, le_refl]

/-! What each kind of action does to the requests. -/

theorem fire_sameRequests {ok guard : Bool} {eff st u : State} (h : fire ok guard eff st = .next u)
    (heff : SameRequests st eff) : SameRequests st u := by
  obtain ⟨-, ⟨-, rfl⟩ | ⟨-, rfl⟩⟩ := fire_next h
  · exact heff
  · exact ⟨rfl, rfl⟩

/-- Forwarding from an idle gateway, seen when the action has ended. -/
theorem forward_settle_forwarded {s : Nat} {st : State} (hsrc : isSource st.cfg s = true) (hidle : st.busyOf s = false) :
    Forwarded s st (forward s st).settle := by
  obtain ⟨hbusy, hreqQ, -⟩ := forward_fields s st
  exact ⟨hsrc, hidle, hbusy, hreqQ⟩

theorem fire_forward_requests {ok guard : Bool} {s : Nat} {st u : State}
    (h : fire ok guard (forward s st) st = .next u) (hsrc : ok = true → isSource st.cfg s = true)
    (hidle : guard = true → st.busyOf s = false) : SameRequests st u ∨ Forwarded s st u := by
  obtain ⟨hok, ⟨hguard, rfl⟩ | ⟨-, rfl⟩⟩ := fire_next h
  · exact .inr (forward_settle_forwarded (hsrc hok) (hidle hguard))
  · exact .inl ⟨rfl, rfl⟩

theorem execFwdL_requests {s : Nat} {st u : State} (h : execFwdL s st = .next u) :
    SameRequests st u ∨ Forwarded s st u :=
  fire_forward_requests h (fun hlevel => isSource_of_kind _ _ (.inl hlevel)) fun hguard => by
    simp only [canForwardLevel, Bool.and_eq_true, Bool.not_eq_true'] at hguard
    exact hguard.2

theorem execFwdC_requests {s : Nat} {st u : State} (h : execFwdC s st = .next u) :
    SameRequests st u ∨ Forwarded s st u :=
  fire_forward_requests h (fun hcount => isSource_of_kind _ _ (.inr (.inr hcount))) fun hguard => by
    simp only [canForwardCount, Bool.and_eq_true, Bool.not_eq_true'] at hguard
    exact hguard.2

/-- An edge at an ignoring gateway is lost, or forwards a request (spec/40_gateways.md R113). -/
theorem edgeIgnored_settle_requests {s : Nat} {st : State} (hkind : isEdgeIgnore st.cfg s = true) :
    SameRequests st (edgeIgnored s st).settle ∨ Forwarded s st (edgeIgnored s st).settle := by
  obtain ⟨-, hlost⟩ | ⟨hidle, hforward⟩ := edgeIgnored_cases s st
  · rw [hlost]
    exact .inl ⟨rfl, rfl⟩
  · rw [hforward]
    exact .inr (forward_settle_forwarded (isSource_of_kind _ _ (.inr (.inl hkind))) hidle)

theorem execEdgeI_requests {s : Nat} {st u : State} (h : execEdgeI s st = .next u) :
    SameRequests st u ∨ Forwarded s st u := by
  obtain ⟨hkind, ⟨-, rfl⟩ | ⟨-, rfl⟩⟩ := fire_next h
  · exact edgeIgnored_settle_requests hkind
  · exact .inl ⟨rfl, rfl⟩

theorem execMsi_requests {s : Nat} {st u : State} (h : execMsi s st = .next u) :
    SameRequests st u ∨ Forwarded s st u := by
  obtain ⟨-, ⟨-, rfl⟩ | ⟨-, rfl⟩⟩ := fire_next h
  · split
    · exact edgeIgnored_settle_requests ‹_›
    · exact .inl ⟨rfl, rfl⟩
  · exact .inl ⟨rfl, rfl⟩

theorem execAccept_requests {s : Nat} {st u : State} (h : execAccept s st = .next u) :
    SameRequests st u ∨ (u.busy = st.busy ∧ u.reqQ = set1 st.reqQ s (st.reqQOf s - 1)) := by
  obtain ⟨-, ⟨-, rfl⟩ | ⟨-, rfl⟩⟩ := fire_next h
  · obtain ⟨hreqQ, -, -, hbusy, -⟩ := accepted_fields s st
    exact .inr ⟨hbusy, hreqQ⟩
  · exact .inl ⟨rfl, rfl⟩

theorem execClaim_sameRequests {r t : Nat} {st u : State} (h : execClaim r t st = .next u) : SameRequests st u := by
  obtain ⟨-, -, -, -, -, ⟨hbusy, -, -, hreqQ⟩, -⟩ := claimed_fields r t (st.dequeueIn r)
  exact fire_sameRequests h ⟨hbusy, hreqQ⟩

/-- COMPLETE is dropped, or clears the `busy` bit of its source (spec/42_claim_completion.md R154). -/
theorem execComplete_requests {r t s : Nat} {st u : State} (h : execComplete r t s st = .next u) :
    SameRequests st u ∨ (u.busy = set1 st.busy s false ∧ u.reqQ = st.reqQ) := by
  obtain ⟨-, ⟨-, rfl⟩ | ⟨-, rfl⟩⟩ := onMessage_next h
  · obtain ⟨hbusy, -, -, -, hreqQ, -⟩ := completed_fields t s (st.dequeueIn r)
    split at hbusy
    · exact .inr ⟨hbusy, hreqQ⟩
    · exact .inl ⟨hbusy, hreqQ⟩
  · exact .inl ⟨rfl, rfl⟩

/-- All that an action can do to the requests: nothing, forward one from an idle gateway, accept one, or end the wait for
a completion (spec/40_gateways.md R110). -/
theorem exec_requests {i : Instr} {st u : State} (h : exec i st = .next u) :
    SameRequests st u
      ∨ (∃ s, Forwarded s st u)
      ∨ (∃ s, i = .accept s ∧ u.busy = st.busy ∧ u.reqQ = set1 st.reqQ s (st.reqQOf s - 1))
      ∨ (∃ r t s, i = .complete r t s ∧ u.busy = set1 st.busy s false ∧ u.reqQ = st.reqQ) := by
  cases i with
  | fwdL s => exact (execFwdL_requests h).imp_right fun hf => .inl ⟨s, hf⟩
  | fwdC s => exact (execFwdC_requests h).imp_right fun hf => .inl ⟨s, hf⟩
  | edgeI s => exact (execEdgeI_requests h).imp_right fun hf => .inl ⟨s, hf⟩
  | msi s => exact (execMsi_requests h).imp_right fun hf => .inl ⟨s, hf⟩
  | accept s => exact (execAccept_requests h).imp_right fun ha => .inr (.inl ⟨s, rfl, ha⟩)
  | claim r t => exact .inl (execClaim_sameRequests h)
  | complete r t s => exact (execComplete_requests h).imp_right fun hc => .inr (.inr ⟨r, t, s, rfl, hc⟩)
  | line | edgeC | wprio | wie | wthr | rprio | rie | rthr | rip | resp | notify =>
    exact .inl (fire_sameRequests h ⟨rfl, rfl⟩)

/-! Actions that leave the core state, history and notifications alone end where their effect does. -/

theorem settle_self {st : State} (hinv : st.Inv) : st.settle = st :=
  settle_of_core hinv rfl rfl rfl rfl rfl rfl rfl rfl

theorem settle_forward {st : State} (hinv : st.Inv) (s : Nat) : (forward s st).settle = forward s st :=
  settle_of_core hinv rfl rfl rfl rfl rfl rfl rfl rfl

theorem settle_setLine {st : State} (hinv : st.Inv) (s : Nat) (b : Bool) : (st.setLine s b).settle = st.setLine s b :=
  settle_of_core hinv rfl rfl rfl rfl rfl rfl rfl rfl

theorem execEdgeI_forwards {s : Nat} {st : State} (hinv : st.Inv) (hkind : isEdgeIgnore st.cfg s = true)
    (hidle : st.busyOf s = false) : execEdgeI s st = .next (forward s st) := by
  simp only [execEdgeI, hkind, fire_enabled, edgeIgnored, hidle, Bool.false_eq_true, if_false, settle_forward hinv]

theorem execEdgeI_lost {s : Nat} {st : State} (hinv : st.Inv) (hkind : isEdgeIgnore st.cfg s = true)
    (hbusy : st.busyOf s = true) : execEdgeI s st = .next st := by
  simp only [execEdgeI, hkind, fire_enabled, edgeIgnored, hbusy, if_true, settle_self hinv]

/-- Settles O22: the edge forwards at an idle gateway and is lost at a busy one, and forwarding touches nothing that
`settle` reads. -/
theorem edgeAtIgnoringGateway : Obligations.EdgeAtIgnoringGateway := by
  intro st s hinv hkind
  refine ⟨fun hidle => ?_, execEdgeI_lost hinv hkind⟩
  have hf : Forwarded s st (forward s st) :=
    settle_forward hinv s ▸ forward_settle_forwarded (isSource_of_kind _ _ (.inr (.inl hkind))) hidle
  obtain ⟨-, -, hframe⟩ := forward_fields s st
  obtain ⟨hbusy, hreqQ⟩ := hf.reads_self hinv.shape
  exact ⟨forward s st, execEdgeI_forwards hinv hkind hidle, hbusy, hreqQ, fun _ => hf.reads_ne, hframe⟩

/-- Settles O25: only ACCEPT takes a request and only CLAIM clears a pending bit, and neither is a gateway action. -/
theorem gatewaysNeverTakeARequestBack : Obligations.GatewaysNeverTakeARequestBack := by
  refine ⟨fun st u i s hinv hi h s' => ⟨?_, fun hset => ?_⟩, fun st s hinv hlevel => ?_⟩
  · obtain hsame | ⟨s₁, hf⟩ | ⟨s₁, rfl, -⟩ | ⟨r, t, s₁, -, -, hreqQ⟩ := exec_requests h
    · exact (hsame.reads s').2.ge
    · by_cases hs : s' = s₁
      · subst hs
        exact (hf.reads_self hinv.shape).2 ▸ Nat.le_succ _
      · exact (hf.reads_ne hs).2.ge
    · simp at hi
    · exact (congrArg (at1 0 · s') hreqQ).ge
  · by_contra hclear
    obtain ⟨r, t, rfl, -⟩ := pending_cleared_by_claim h hset (Bool.eq_false_iff.2 hclear)
    simp at hi
  · simp only [exec, execLine, hlevel, fire_enabled, settle_setLine hinv]

/-- What an action does to the requests of one source. -/
theorem exec_requests_at {i : Instr} {st u : State} (hinv : st.Inv) (h : exec i st = .next u) (s : Nat) :
    (u.busyOf s = st.busyOf s ∧ u.reqQOf s ≤ st.reqQOf s)
      ∨ (st.busyOf s = false ∧ u.busyOf s = true ∧ u.reqQOf s = st.reqQOf s + 1)
      ∨ ((∃ r t, i = .complete r t s) ∧ u.busyOf s = false ∧ u.reqQOf s = st.reqQOf s) := by
  obtain hsame | ⟨s₁, hf⟩ | ⟨s₁, -, hbusy, hreqQ⟩ | ⟨r, t, s₁, rfl, hbusy, hreqQ⟩ := exec_requests h
  · obtain ⟨hb, hq⟩ := hsame.reads s
    exact .inl ⟨hb, hq.le⟩
  · by_cases hs : s = s₁
    · subst hs
      exact .inr (.inl ⟨hf.idle, hf.reads_self hinv.shape⟩)
    · obtain ⟨hb, hq⟩ := hf.reads_ne hs
      exact .inl ⟨hb, hq.le⟩
  · exact .inl ⟨congrArg (at1 false · s) hbusy, reqQOf_le_of_accepted hreqQ s⟩
  · have hq : u.reqQOf s = st.reqQOf s := congrArg (at1 0 · s) hreqQ
    have hb : u.busyOf s = at1 false (set1 st.busy s₁ false) s := congrArg (at1 false · s) hbusy
    rw [at1_set1] at hb
    split at hb
    case isTrue hs =>
      obtain ⟨rfl, -⟩ := hs
      exact .inr (.inr ⟨⟨r, t, rfl⟩, hb, hq⟩)
    case isFalse => exact .inl ⟨hb, hq.le⟩

/-- Settles O26: each clause in the three cases of `exec_requests_at`. -/
theorem oneRequestAtATime : Obligations.OneRequestAtATime := by
  intro st u i s hinv h
  obtain ⟨hb, hq⟩ | ⟨hidle, hb, hq⟩ | ⟨hcomplete, hb, hq⟩ := exec_requests_at hinv h s
  · exact ⟨fun hgrew => absurd hgrew hq.not_gt, fun _ => hq, fun hset hclear => by simp [hb, hset] at hclear,
      fun hclear hset => by simp [hb, hclear] at hset⟩
  · exact ⟨fun _ => ⟨hidle, hb, hq⟩, fun hset => by simp [hidle] at hset, fun hset => by simp [hidle] at hset,
      fun _ _ => hq⟩
  · exact ⟨fun hgrew => absurd hgrew hq.not_gt, fun _ => hq.le, fun _ _ => hcomplete,
      fun _ hset => by simp [hb] at hset⟩

end Sys2Proof.Proofs
end

section
/-! PROOFS. The priority register (spec/41_registers.md R131): what ends a message action, when a changed priority can
change `EIP`, and the write of a priority. -/

namespace Sys2Proof.Proofs

open Sys2Proof Sys2Proof.Machine

/-! What ends a message action. -/

theorem dequeueIn_dequeued (r : Nat) (st : State) : Dequeued r st (st.dequeueIn r) :=
  ⟨by rw [dequeueIn_inQOf, if_pos rfl], fun r' hne => by rw [dequeueIn_inQOf, if_neg hne], rfl⟩

/-- Settling an effect that kept history and notifications makes them follow the new `EIP` (spec/10_state.md R36). -/
theorem settle_historyFollows {st eff : State} (hshape : st.Shape) (hcfg : eff.cfg = st.cfg)
    (hsame : SameNotifications st eff) : HistoryFollows st eff.settle := by
  intro t ht
  obtain ⟨hnotif, hseen0, hseen1⟩ := hsame
  have hreads := settle_reads eff t (hseen1 ▸ hshape.seen1 ▸ ht) (hseen0 ▸ hshape.seen0 ▸ ht)
    (hnotif ▸ hshape.notif ▸ ht)
  simpa only [State.seen1Of, State.seen0Of, State.notifOf, hseen1, hseen0, hnotif, hcfg, settle_eip] using hreads

/-! When a changed priority can change `EIP`. -/

theorem eip_iff_active (st : State) (t : Nat) :
    st.eip t = true ↔ ∃ s, isSource st.cfg s = true ∧ st.active t s = true ∧ st.prioOf s > st.thrOf t := by
  simp only [eip_iff, State.active, Bool.and_eq_true, and_assoc]

/-- The priority of a source that is not active for the target has no part in its `EIP`. -/
theorem eip_eq_of_inactive {st u : State} {s t : Nat} (hcfg : u.cfg = st.cfg)
    (hactive : ∀ s', u.active t s' = st.active t s') (hthr : u.thrOf t = st.thrOf t)
    (hprio : ∀ s', s' ≠ s → u.prioOf s' = st.prioOf s') (hs : st.active t s = false) : u.eip t = st.eip t := by
  rw [Bool.eq_iff_iff, eip_iff_active, eip_iff_active]
  refine exists_congr fun s' => ?_
  rw [hcfg, hactive, hthr]
  by_cases hne : s' = s
  · simp [hne, hs]
  · rw [hprio s' hne]

/-! Legal priorities. -/

theorem legalPrio_zero {c : Cfg} {s : Nat} (hone : prioOne c s = 0) : legalPrio c s 0 = 0 := by
  simp [legalPrio, lowPw, hone]

/-- A priority without a variable bit already holds the one value that a write can store (spec/10_state.md R41). -/
theorem legalPrio_eq_prioOf {st : State} (hinv : st.Inv) {s : Nat} (hsrc : isSource st.cfg s = true)
    (hvar : prioVar st.cfg s = 0) (w : Nat) : legalPrio st.cfg s w = st.prioOf s := by
  obtain ⟨hge, hle⟩ := (isSource_iff _ _).1 hsrc
  have hone : ∀ v, legalPrio st.cfg s v = prioOne st.cfg s := by simp [legalPrio, hvar]
  rw [hinv.prioLegal s hle hge, hone, hone]

/-! The write. -/

/-- The state after the action WPRIO of a queue's head (spec/41_registers.md R131). -/
def prioWritten (r s w : Nat) (st : State) : State :=
  ((st.dequeueIn r).setPrio s (legalPrio st.cfg s w)).settle

theorem exec_wprio_head {st : State} (hinv : st.Inv) {r s w : Nat} (hhead : (st.inQOf r).head? = some (.wprio s w)) :
    exec (.wprio r s w) st = .next (prioWritten r s w st) :=
  onMessage_head hinv hhead fun x => x.setPrio s (legalPrio x.cfg s w)

/-- Beside the priorities and what follows `EIP`, the write takes its message and nothing else. -/
theorem prioWritten_fields (r s w : Nat) (st : State) :
    (prioWritten r s w st).prio = set1 st.prio s (legalPrio st.cfg s w) ∧ (prioWritten r s w st).ip = st.ip
      ∧ (prioWritten r s w st).ie = st.ie ∧ (prioWritten r s w st).thr = st.thr
      ∧ SameGateways st (prioWritten r s w st) ∧ Dequeued r st (prioWritten r s w st)
      ∧ (prioWritten r s w st).outQ = st.outQ ∧ SameModel st (prioWritten r s w st) :=
  ⟨rfl, rfl, rfl, rfl, ⟨rfl, rfl, rfl, rfl⟩, dequeueIn_dequeued r st, rfl, ⟨rfl, rfl, rfl⟩⟩

theorem prioWritten_prioOf_self {st : State} (hshape : st.Shape) (r : Nat) {s : Nat} (hsrc : isSource st.cfg s = true)
    (w : Nat) : (prioWritten r s w st).prioOf s = legalPrio st.cfg s w := by
  obtain ⟨hge, hle⟩ := (isSource_iff _ _).1 hsrc
  exact at1_set1_self 0 st.prio s _ hge (hshape.prio ▸ hle)

theorem prioWritten_prioOf_ne (st : State) (r w : Nat) {s s' : Nat} (hne : s' ≠ s) :
    (prioWritten r s w st).prioOf s' = st.prioOf s' :=
  at1_set1_ne 0 st.prio s s' _ hne

theorem prioWritten_hardwired {st : State} (hinv : st.Inv) (r : Nat) {s : Nat} (hsrc : isSource st.cfg s = true)
    (hvar : prioVar st.cfg s = 0) (w : Nat) : (prioWritten r s w st).prio = st.prio := by
  obtain ⟨-, hle⟩ := (isSource_iff _ _).1 hsrc
  obtain ⟨hprio, -⟩ := prioWritten_fields r s w st
  rw [hprio, legalPrio_eq_prioOf hinv hsrc hvar]
  exact set1_same 0 st.prio s (hinv.shape.prio ▸ hle)

theorem prioWritten_historyFollows {st : State} (hshape : st.Shape) (r s w : Nat) :
    HistoryFollows st (prioWritten r s w st) :=
  settle_historyFollows hshape rfl ⟨rfl, rfl, rfl⟩

/-- The write changes neither which sources are active nor a threshold, so `EIP` weighs the new priorities against what
stood before. -/
theorem prioWritten_eip_iff (st : State) (r s w t : Nat) :
    (prioWritten r s w st).eip t = true ↔ ∃ s', isSource st.cfg s' = true ∧ st.active t s' = true
      ∧ (prioWritten r s w st).prioOf s' > st.thrOf t :=
  eip_iff_active (prioWritten r s w st) t

theorem prioWritten_eip_of_inactive {st : State} (r w : Nat) {s t : Nat} (hs : st.active t s = false) :
    (prioWritten r s w st).eip t = st.eip t :=
  eip_eq_of_inactive rfl (fun _ => rfl) rfl (fun _ => prioWritten_prioOf_ne st r w) hs

/-- Settles O28: the head's WPRIO leads to `prioWritten`, and each clause is a law about that state; the invariant gives
that `s` is a source and that a hardwired priority already holds its value. -/
theorem writePriority : Obligations.WritePriority := by
  intro st r s w hinv hhead
  obtain ⟨-, hsrc⟩ := head_inRange hinv hhead
  have hself := prioWritten_prioOf_self hinv.shape r hsrc w
  obtain ⟨-, hip, hie, hthr, hgateways, hdequeued, houtQ, hmodel⟩ := prioWritten_fields r s w st
  refine ⟨prioWritten r s w st, exec_wprio_head hinv hhead, hself, fun _ => prioWritten_prioOf_ne st r w,
    fun hvar => prioWritten_hardwired hinv r hsrc hvar w, ?_, hip, hie, hthr, hgateways, hdequeued, houtQ,
    prioWritten_historyFollows hinv.shape r s w, hmodel, fun _ => prioWritten_eip_of_inactive r w, ?_,
    prioWritten_eip_iff st r s w⟩
  · rintro hone rfl
    rw [hself, legalPrio_zero hone]
  · intro t hactive habove
    exact (prioWritten_eip_iff st r s w t).2 ⟨s, hsrc, hactive, habove⟩

end Sys2Proof.Proofs
end

section
/-! PROOFS. Action words (log 8) and the steps that run them (log 5): seven-bit groups are read back, so operands are, so
words are. -/

namespace Sys2Proof.Proofs

open Sys2Proof Sys2Proof.Machine Sys2Proof.Laws

/-! Operands. -/

/-- A byte below 128 is a last group. -/
theorem decodeNat_last {n : Nat} (h : n < 128) (rest : List Byte) :
    decodeNat (BitVec.ofNat 8 n :: rest) = some (n, rest) := by
  have hbyte : (BitVec.ofNat 8 n).toNat = n := by
    rw [BitVec.toNat_ofNat]
    omega
  rw [decodeNat, hbyte, if_pos h]

/-- A byte with bit 7 set carries seven bits of the operand, and the groups after it the others. -/
theorem decodeNat_group (n : Nat) {bs rest : List Byte} (h : decodeNat bs = some (n / 128, rest)) :
    decodeNat (BitVec.ofNat 8 (n % 128 + 128) :: bs) = some (n, rest) := by
  have hbyte : (BitVec.ofNat 8 (n % 128 + 128)).toNat = n % 128 + 128 := by
    rw [BitVec.toNat_ofNat]
    omega
  rw [decodeNat, hbyte, if_neg (by omega), h]
  simp only [Option.some.injEq, Prod.mk.injEq, and_true]
  omega

theorem decodeNat_encodeNatFuel (fuel n : Nat) (rest : List Byte) (h : n < 128 ^ (fuel + 1)) :
    decodeNat (encodeNatFuel fuel n ++ rest) = some (n, rest) := by
  induction fuel generalizing n with
  | zero => exact decodeNat_last (by simpa using h) rest
  | succ fuel ih =>
    rw [encodeNatFuel]
    split
    · exact decodeNat_last ‹_› rest
    · exact decodeNat_group n (ih (n / 128) (Nat.div_lt_of_lt_mul (by rwa [pow_succ'] at h)))

theorem lt_pow_groups (n : Nat) : n < 128 ^ (n.log2 + 1) :=
  calc n < 2 ^ (n.log2 + 1) := Nat.lt_log2_self
    _ ≤ 128 ^ (n.log2 + 1) := Nat.pow_le_pow_left (by omega) _

theorem decodeNat_encodeNat (n : Nat) (rest : List Byte) : decodeNat (encodeNat n ++ rest) = some (n, rest) :=
  decodeNat_encodeNatFuel _ n rest (lt_pow_groups n)

theorem decodeNats_flatMap_encodeNat (xs : List Nat) (rest : List Byte) :
    decodeNats xs.length (xs.flatMap encodeNat ++ rest) = some (xs, rest) := by
  induction xs with
  | nil => rfl
  | cons x xs ih => simp [decodeNats, List.append_assoc, decodeNat_encodeNat, ih]

/-! Words. -/

theorem wordParts : ∀ i : Instr, WordParts.Statement i
  | .line s b => WordParts.line s b
  | .fwdL s => WordParts.fwdL s
  | .edgeI s => WordParts.edgeI s
  | .edgeC s => WordParts.edgeC s
  | .fwdC s => WordParts.fwdC s
  | .msi s => WordParts.msi s
  | .wprio r s w => WordParts.wprio r s w
  | .wie r t k w => WordParts.wie r t k w
  | .wthr r t w => WordParts.wthr r t w
  | .rprio r s => WordParts.rprio r s
  | .rie r t k => WordParts.rie r t k
  | .rthr r t => WordParts.rthr r t
  | .rip r k => WordParts.rip r k
  | .accept s => WordParts.accept s
  | .claim r t => WordParts.claim r t
  | .complete r t s => WordParts.complete r t s
  | .resp r => WordParts.resp r
  | .notify t v => WordParts.notify t v

/-- Settles O1: the first byte gives back row and one-bit operand, `decodeNats` the other operands, and `wordParts` the
action built of them. -/
theorem decodeOfEncodeIsTheAction : Obligations.DecodeOfEncodeIsTheAction := by
  intro i rest
  obtain ⟨hword, hhead, hcount, hfield, hbuild⟩ := wordParts i
  have hbit : i.bit.toNat < 2 := Bool.toNat_lt i.bit
  have hrow : (4 * i.row + i.bit.toNat) / 4 = i.row := by omega
  have hlow : (4 * i.row + i.bit.toNat) % 4 = i.bit.toNat := by omega
  have hflag : decide (i.bit.toNat = 1) = i.bit := by cases i.bit <;> rfl
  rw [hword, List.cons_append, decode, hhead, hrow, hlow]
  simp only [hcount, hfield, if_true, decodeNats_flatMap_encodeNat, hflag, hbuild]

theorem operandCount_eq_none {row : Nat} (h : row = 0 ∨ 18 < row) : operandCount row = none := by
  unfold operandCount
  split
  any_goals omega
  rfl

/-- Settles O2: such a number is no row's. -/
theorem reservedRowsAreRefused : Obligations.ReservedRowsAreRefused := by
  intro b bs h
  simp only [decode, operandCount_eq_none h]

/-- Settles O3 by reading the six words. -/
theorem writtenOutWordsDecode : Obligations.WrittenOutWordsDecode :=
  ⟨rfl, rfl, rfl, rfl, rfl, rfl⟩

/-! Steps. -/

theorem step_cons {st : State} {e : Event} {rest : List Event} (h : st.agenda = e :: rest) :
    step st = runEvent e { st with agenda := rest } := by
  simp only [step, h]

theorem step_nil {st : State} (h : st.agenda = []) :
    step st = runChoice (Config.choice st.tick) { st with tick := st.tick + 1 } := by
  simp only [step, h]

theorem runWord_ok {word : List Byte} {i : Instr} (h : decodeWord word = .ok i) (st : State) :
    runWord word st = exec i st := by
  simp only [runWord, h]

/-- Settles O4: the agenda's first event is the step's, and a word that decodes is run. -/
theorem stepRunsTheDecodedAction : Obligations.StepRunsTheDecodedAction :=
  fun _ _ _ _ hagenda hword => (step_cons hagenda).trans (runWord_ok hword _)

theorem decodeWord_tableWord {nbits w : Nat} {i : Instr} (h : decodeTableWord nbits w = some i) :
    decodeWord (tableWord nbits w) = .ok i := by
  unfold decodeTableWord at h
  split at h
  · simp_all
  · simp at h

/-- Settles O5: taking the placed event off the agenda again leaves the state as it was. -/
theorem placedWordRunsNext : Obligations.PlacedWordRunsNext :=
  fun st _ _ i h => stepRunsTheDecodedAction (st.withFetchWord _ _) _ st.agenda i rfl (decodeWord_tableWord h)

end Sys2Proof.Proofs
end

section
/-! PROOFS. Actions and events: the effect of every action by name, how an action answers by it (logs 6, 7), and all that
one step can do. -/

namespace Sys2Proof.Proofs

open Sys2Proof Sys2Proof.Machine

/-! How an action answers. -/

/-- The state after the effect of the action, before history and notifications follow (`exec_of_enabled`). -/
def effect (i : Instr) (st : State) : State :=
  match i with
  | .line s b => st.setLine s b
  | .fwdL s => forward s st
  | .edgeI s => edgeIgnored s st
  | .edgeC s => edgeCounted s st
  | .fwdC s => forward s st
  | .msi s => if isEdgeIgnore st.cfg s then edgeIgnored s st else edgeCounted s st
  | .wprio r s w => (st.dequeueIn r).setPrio s (legalPrio st.cfg s w)
  | .wie r t k w => (st.dequeueIn r).setIeRow t (writeIeRow st.cfg t k w (st.ieRow t))
  | .wthr r t w => (st.dequeueIn r).setThr t (legalThr st.cfg t w)
  | .rprio r s => (st.dequeueIn r).enqueueOut r (.rresp (st.prioOf s))
  | .rie r t k => (st.dequeueIn r).enqueueOut r (.rresp (packReg st.cfg (st.ieOf t) k))
  | .rthr r t => (st.dequeueIn r).enqueueOut r (.rresp (st.thrOf t))
  | .rip r k => (st.dequeueIn r).enqueueOut r (.rresp (packReg st.cfg st.ipOf k))
  | .accept s => accepted s st
  | .claim r t => claimed r t (st.dequeueIn r)
  | .complete r t s => completed t s (st.dequeueIn r)
  | .resp r => st.deliver r
  | .notify t v => st.setNotif t v

/-- Every action is one `fire` of its ranges, its guard and its effect. -/
theorem exec_eq_fire (i : Instr) (st : State) :
    ∃ guard, enabled st i = (i.wf st.cfg && guard) ∧ exec i st = fire (i.wf st.cfg) guard (effect i st) st := by
  cases i <;> exact ⟨_, rfl, rfl⟩

theorem exec_of_enabled {i : Instr} {st : State} (h : enabled st i = true) :
    exec i st = .next (effect i st).settle := by
  obtain ⟨guard, hen, hexec⟩ := exec_eq_fire i st
  obtain ⟨hwf, hguard⟩ := (Bool.and_eq_true _ _).mp (hen ▸ h)
  rw [hexec, hwf, hguard, fire_enabled]

theorem exec_of_disabled {i : Instr} {st : State} (hwf : i.wf st.cfg = true) (h : enabled st i = false) :
    exec i st = .next st := by
  obtain ⟨guard, hen, hexec⟩ := exec_eq_fire i st
  rw [h, hwf, Bool.true_and] at hen
  rw [hexec, hwf, ← hen, fire_waits]

theorem exec_of_missing {i : Instr} {st : State} (hwf : i.wf st.cfg = false) :
    exec i st = .refused .noSuchAction := by
  obtain ⟨guard, -, hexec⟩ := exec_eq_fire i st
  rw [hexec, hwf, fire_missing]

theorem wf_of_enabled {i : Instr} {st : State} (h : enabled st i = true) : i.wf st.cfg = true := by
  obtain ⟨guard, hen, -⟩ := exec_eq_fire i st
  exact ((Bool.and_eq_true _ _).mp (hen ▸ h)).1

/-- An action that answers a next state has fired or waited. -/
theorem exec_next {i : Instr} {st u : State} (h : exec i st = .next u) :
    (enabled st i = true ∧ u = (effect i st).settle) ∨ (enabled st i = false ∧ u = st) := by
  obtain ⟨guard, hen, hexec⟩ := exec_eq_fire i st
  obtain ⟨hwf, hcases⟩ := fire_next (hexec ▸ h)
  rwa [hen, hwf, Bool.true_and]

/-- Settles O51. -/
theorem actionsFireExactlyWhenEnabled : Obligations.ActionsFireExactlyWhenEnabled :=
  fun _ _ => ⟨fun h => ⟨_, exec_of_enabled h⟩, exec_of_disabled, exec_of_missing⟩

/-! Messages. -/

theorem processing_wf (c : Cfg) (r : Nat) (m : Msg) : (processing r m).wf c = (isReq c r && msgInRange c m) := by
  cases m <;> rfl

theorem enabled_processing (st : State) (r : Nat) (m : Msg) :
    enabled st (processing r m) = (isReq st.cfg r && msgInRange st.cfg m && st.headIs r m) := by
  cases m <;> rfl

/-- In a well-formed state the action of a queue's head is enabled. -/
theorem enabled_of_head {st : State} (hinv : st.Inv) {r : Nat} {m : Msg} (hhead : (st.inQOf r).head? = some m) :
    enabled st (processing r m) = true := by
  obtain ⟨hreq, hrange⟩ := head_inRange hinv hhead
  rw [enabled_processing, hreq, hrange, (headIs_iff st r m).2 hhead]
  rfl

theorem exec_head {st : State} (hinv : st.Inv) {r : Nat} {m : Msg} (hhead : (st.inQOf r).head? = some m) :
    exec (processing r m) st = .next (effect (processing r m) st).settle :=
  exec_of_enabled (enabled_of_head hinv hhead)

theorem head_of_enabled {st : State} {r : Nat} {m : Msg} (h : enabled st (processing r m) = true) :
    (st.inQOf r).head? = some m := by
  rw [enabled_processing, Bool.and_eq_true, headIs_iff] at h
  exact h.2

/-- The effect of a message action takes its message from the queue, whatever else it does. -/
theorem effect_processing_inQ (r : Nat) (m : Msg) (st : State) :
    (effect (processing r m) st).inQ = (st.dequeueIn r).inQ := by
  cases m with
  | claim t =>
    obtain ⟨-, -, hinQ, -⟩ := claimed_fields r t (st.dequeueIn r)
    exact hinQ
  | complete t s =>
    obtain ⟨-, -, -, -, -, -, ⟨hinQ, -⟩, -⟩ := completed_fields t s (st.dequeueIn r)
    exact hinQ
  | wprio | wie | wthr | rprio | rie | rthr | rip => rfl

/-- Every action processes a message, is an event of the environment, or is one of the PLIC's five own actions. -/
theorem action_kinds (i : Instr) :
    (∃ r m, i = processing r m) ∨ Environment i = true ∨ (∃ s, i = .fwdL s) ∨ (∃ s, i = .fwdC s) ∨ (∃ s, i = .accept s)
      ∨ (∃ r, i = .resp r) ∨ ∃ t v, i = .notify t v := by
  cases i with
  | line | edgeI | edgeC | msi => exact .inr (.inl rfl)
  | fwdL s => exact .inr (.inr (.inl ⟨s, rfl⟩))
  | fwdC s => exact .inr (.inr (.inr (.inl ⟨s, rfl⟩)))
  | accept s => exact .inr (.inr (.inr (.inr (.inl ⟨s, rfl⟩))))
  | resp r => exact .inr (.inr (.inr (.inr (.inr (.inl ⟨r, rfl⟩)))))
  | notify t v => exact .inr (.inr (.inr (.inr (.inr (.inr ⟨t, v, rfl⟩)))))
  | wprio r s w => exact .inl ⟨r, .wprio s w, rfl⟩
  | wie r t k w => exact .inl ⟨r, .wie t k w, rfl⟩
  | wthr r t w => exact .inl ⟨r, .wthr t w, rfl⟩
  | rprio r s => exact .inl ⟨r, .rprio s, rfl⟩
  | rie r t k => exact .inl ⟨r, .rie t k, rfl⟩
  | rthr r t => exact .inl ⟨r, .rthr t, rfl⟩
  | rip r k => exact .inl ⟨r, .rip k, rfl⟩
  | claim r t => exact .inl ⟨r, .claim t, rfl⟩
  | complete r t s => exact .inl ⟨r, .complete t s, rfl⟩

theorem processing_not_environment (r : Nat) (m : Msg) : Environment (processing r m) = false := by
  cases m <;> rfl

theorem processing_ne_notify (r : Nat) (m : Msg) (t : Nat) (v : Bool) : processing r m ≠ .notify t v := by
  cases m <;> exact nofun

/-! What the effects leave alone. -/

/-- What the effect `u` of action `i` in `st` may write among configuration, registers, message queues, history and
notifications: a component changes by its own actions only. -/
structure Frame (i : Instr) (st u : State) : Prop where
  model : SameModel st u
  seen0 : u.seen0 = st.seen0
  seen1 : u.seen1 = st.seen1
  prio : u.prio = st.prio ∨ ∃ r s w, i = .wprio r s w
  ie : u.ie = st.ie ∨ ∃ r t k w, i = .wie r t k w
  thr : u.thr = st.thr ∨ ∃ r t w, i = .wthr r t w
  notif : u.notif = st.notif ∨ ∃ t v, i = .notify t v
  inQ : u.inQ = st.inQ ∨ ∃ r m, i = processing r m

theorem frame_of_same {i : Instr} {st u : State} (hmodel : SameModel st u) (hregs : SameRegisters st u)
    (hnotif : SameNotifications st u) (hinQ : u.inQ = st.inQ ∨ ∃ r m, i = processing r m) : Frame i st u := by
  obtain ⟨hprio, hie, hthr⟩ := hregs
  obtain ⟨hn, h0, h1⟩ := hnotif
  exact ⟨hmodel, h0, h1, .inl hprio, .inl hie, .inl hthr, .inl hn, hinQ⟩

theorem edgeIgnored_same (s : Nat) (st : State) :
    SameModel st (edgeIgnored s st) ∧ SameRegisters st (edgeIgnored s st) ∧ SameNotifications st (edgeIgnored s st)
      ∧ SameQueues st (edgeIgnored s st) := by
  obtain ⟨-, h⟩ | ⟨-, h⟩ := edgeIgnored_cases s st <;> rw [h]
  · exact ⟨⟨rfl, rfl, rfl⟩, ⟨rfl, rfl, rfl⟩, ⟨rfl, rfl, rfl⟩, ⟨rfl, rfl, rfl⟩⟩
  · obtain ⟨-, -, -, -, -, hregs, hqueues, hnotif, hmodel⟩ := forward_fields s st
    exact ⟨hmodel, hregs, hnotif, hqueues⟩

/-- An MSI is the edge of its gateway's kind (spec/40_gateways.md R116). -/
theorem effect_msi (s : Nat) (st : State) :
    (isEdgeIgnore st.cfg s = true ∧ effect (.msi s) st = edgeIgnored s st)
      ∨ (isEdgeIgnore st.cfg s = false ∧ effect (.msi s) st = edgeCounted s st) := by
  cases h : isEdgeIgnore st.cfg s
  · exact .inr ⟨rfl, by simp [effect, h]⟩
  · exact .inl ⟨rfl, by simp [effect, h]⟩

theorem effect_frame (i : Instr) (st : State) : Frame i st (effect i st) := by
  cases i with
  | line | fwdL | edgeC | fwdC | resp => exact frame_of_same ⟨rfl, rfl, rfl⟩ ⟨rfl, rfl, rfl⟩ ⟨rfl, rfl, rfl⟩ (.inl rfl)
  | edgeI s =>
    obtain ⟨hmodel, hregs, hnotif, hinQ, -⟩ := edgeIgnored_same s st
    exact frame_of_same hmodel hregs hnotif (.inl hinQ)
  | msi s =>
    obtain ⟨-, h⟩ | ⟨-, h⟩ := effect_msi s st <;> rw [h]
    · obtain ⟨hmodel, hregs, hnotif, hinQ, -⟩ := edgeIgnored_same s st
      exact frame_of_same hmodel hregs hnotif (.inl hinQ)
    · exact frame_of_same ⟨rfl, rfl, rfl⟩ ⟨rfl, rfl, rfl⟩ ⟨rfl, rfl, rfl⟩ (.inl rfl)
  | accept s =>
    obtain ⟨-, -, -, -, -, hregs, ⟨hinQ, -⟩, hnotif, hmodel⟩ := accepted_fields s st
    exact frame_of_same hmodel hregs hnotif (.inl hinQ)
  | claim r t =>
    obtain ⟨-, -, -, -, hregs, -, hnotif, hmodel⟩ := claimed_fields r t (st.dequeueIn r)
    exact frame_of_same hmodel hregs hnotif (.inr ⟨r, .claim t, rfl⟩)
  | complete r t s =>
    obtain ⟨-, -, -, -, -, hregs, -, hnotif, hmodel⟩ := completed_fields t s (st.dequeueIn r)
    exact frame_of_same hmodel hregs hnotif (.inr ⟨r, .complete t s, rfl⟩)
  | rprio r s => exact frame_of_same ⟨rfl, rfl, rfl⟩ ⟨rfl, rfl, rfl⟩ ⟨rfl, rfl, rfl⟩ (.inr ⟨r, .rprio s, rfl⟩)
  | rie r t k => exact frame_of_same ⟨rfl, rfl, rfl⟩ ⟨rfl, rfl, rfl⟩ ⟨rfl, rfl, rfl⟩ (.inr ⟨r, .rie t k, rfl⟩)
  | rthr r t => exact frame_of_same ⟨rfl, rfl, rfl⟩ ⟨rfl, rfl, rfl⟩ ⟨rfl, rfl, rfl⟩ (.inr ⟨r, .rthr t, rfl⟩)
  | rip r k => exact frame_of_same ⟨rfl, rfl, rfl⟩ ⟨rfl, rfl, rfl⟩ ⟨rfl, rfl, rfl⟩ (.inr ⟨r, .rip k, rfl⟩)
  | wprio r s w =>
    exact ⟨⟨rfl, rfl, rfl⟩, rfl, rfl, .inr ⟨r, s, w, rfl⟩, .inl rfl, .inl rfl, .inl rfl, .inr ⟨r, .wprio s w, rfl⟩⟩
  | wie r t k w =>
    exact ⟨⟨rfl, rfl, rfl⟩, rfl, rfl, .inl rfl, .inr ⟨r, t, k, w, rfl⟩, .inl rfl, .inl rfl, .inr ⟨r, .wie t k w, rfl⟩⟩
  | wthr r t w =>
    exact ⟨⟨rfl, rfl, rfl⟩, rfl, rfl, .inl rfl, .inl rfl, .inr ⟨r, t, w, rfl⟩, .inl rfl, .inr ⟨r, .wthr t w, rfl⟩⟩
  | notify t v => exact ⟨⟨rfl, rfl, rfl⟩, rfl, rfl, .inl rfl, .inl rfl, .inl rfl, .inr ⟨t, v, rfl⟩, .inl rfl⟩

theorem exec_sameModel {i : Instr} {st u : State} (h : exec i st = .next u) : SameModel st u := by
  obtain ⟨-, rfl⟩ | ⟨-, rfl⟩ := exec_next h
  · exact (effect_frame i st).model
  · exact ⟨rfl, rfl, rfl⟩

/-! What one step can do. -/

/-- The state with the choices still to come replaced, which is how a step begins (log 5). -/
def rescheduled (st : State) (agenda : List Event) (tick : Nat) : State := { st with agenda := agenda, tick := tick }

/-- A message that is sent is in range and joins its queue. -/
theorem sendMsg_next {r : Nat} {m : Msg} {st u : State} (h : sendMsg r m st = .next u) :
    r < st.cfg.reqs ∧ msgInRange st.cfg m = true ∧ u = st.enqueueIn r m := by
  unfold sendMsg at h
  split at h
  case isTrue hin =>
    rw [Bool.and_eq_true, isReq_iff] at hin
    exact ⟨hin.1, hin.2, (Host.Outcome.next.inj h).symm⟩
  case isFalse => cases h

/-- A bus access that completes sends a message or is ignored. -/
theorem accessBus_next {r : Nat} {a : AccessMeaning} {st u : State} (h : accessBus r a st = .next u) :
    (∃ m, r < st.cfg.reqs ∧ msgInRange st.cfg m = true ∧ u = st.enqueueIn r m) ∨ u = st := by
  cases a with
  | message m => exact .inl ⟨m, sendMsg_next h⟩
  | ignored => exact .inr (Host.Outcome.next.inj h).symm
  | refused => cases h

/-- All that an event can do: run the action its word spells, queue a message in range, or nothing. -/
theorem runEvent_next {e : Event} {st u : State} (h : runEvent e st = .next u) :
    (∃ word i, e = .action word ∧ decodeWord word = .ok i ∧ exec i st = .next u)
      ∨ (∃ r m, r < st.cfg.reqs ∧ msgInRange st.cfg m = true ∧ firing? st e = none ∧ u = st.enqueueIn r m)
      ∨ (firing? st e = none ∧ u = st) := by
  cases e with
  | action word =>
    simp only [runEvent, runWord] at h
    split at h
    case h_1 i hword => exact .inl ⟨word, i, rfl, hword, h⟩
    case h_2 => cases h
  | send r m =>
    obtain ⟨hr, hm, hu⟩ := sendMsg_next h
    exact .inr (.inl ⟨r, m, hr, hm, rfl, hu⟩)
  | busRead r addr n =>
    obtain ⟨m, hr, hm, hu⟩ | hu := accessBus_next h
    · exact .inr (.inl ⟨r, m, hr, hm, rfl, hu⟩)
    · exact .inr (.inr ⟨rfl, hu⟩)
  | busWrite r addr bytes =>
    obtain ⟨m, hr, hm, hu⟩ | hu := accessBus_next h
    · exact .inr (.inl ⟨r, m, hr, hm, rfl, hu⟩)
    · exact .inr (.inr ⟨rfl, hu⟩)

/-- A step runs its event, or nothing, in the state from which the choice has been taken. -/
theorem step_next {st u : State} (h : step st = .next u) :
    ∃ agenda tick, runEvent st.nextEvent (rescheduled st agenda tick) = .next u ∨ u = rescheduled st agenda tick := by
  cases hagenda : st.agenda with
  | cons e rest =>
    rw [step_cons hagenda] at h
    refine ⟨rest, st.tick, .inl ?_⟩
    simpa only [State.nextEvent, hagenda, rescheduled] using h
  | nil =>
    rw [step_nil hagenda, runChoice] at h
    refine ⟨[], st.tick + 1, ?_⟩
    split at h
    · left
      simpa only [State.nextEvent, hagenda, rescheduled] using h
    · right
      simpa only [Host.Outcome.next.injEq, hagenda, rescheduled, eq_comm] using h

/-- A property that does not read the choices still to come, and that sending and every action keep, is kept by a step. -/
theorem step_keeps {P : State → Prop} (hchoice : ∀ st agenda tick, P st → P (rescheduled st agenda tick))
    (hsend : ∀ st r m, r < st.cfg.reqs → msgInRange st.cfg m = true → P st → P (st.enqueueIn r m))
    (hexec : ∀ i st u, P st → exec i st = .next u → P u) {st u : State} (hst : P st) (h : step st = .next u) : P u := by
  obtain ⟨agenda, tick, hrun | rfl⟩ := step_next h
  · obtain ⟨word, i, -, -, hi⟩ | ⟨r, m, hr, hm, -, rfl⟩ | ⟨-, rfl⟩ := runEvent_next hrun
    · exact hexec i _ _ (hchoice _ _ _ hst) hi
    · exact hsend _ r m hr hm (hchoice _ _ _ hst)
    · exact hchoice _ _ _ hst
  · exact hchoice _ _ _ hst

end Sys2Proof.Proofs
end

section
/-! PROOFS. WARL fields (spec/10_state.md R41, R42; D5, log 23): legalisation bit by bit. -/

namespace Sys2Proof.Proofs

open Sys2Proof Sys2Proof.Machine

/-! What a well-formed configuration says of the hardwired and variable bits (spec/00_scope.md R7). -/

theorem prioBits_wf {c : Cfg} (h : c.wf = true) (s : Nat) :
    prioOne c s &&& prioVar c s = 0 ∧ prioOne c s < 2 ^ c.pw ∧ prioVar c s < 2 ^ c.pw := by
  simp only [Cfg.wf, Bool.and_eq_true, List.all_eq_true] at h
  obtain ⟨⟨⟨⟨-, hsources⟩, -⟩, -⟩, -⟩ := h
  cases hs : sourceCfg? c s with
  | none => simp [prioOne, prioVar, hs]
  | some x =>
    have hmem : x ∈ c.sources := by
      cases s with
      | zero => simp [sourceCfg?] at hs
      | succ k => exact List.mem_of_getElem? hs
    simpa [prioOne, prioVar, hs, SourceCfg.wf] using hsources x hmem

theorem thrVar_lt {c : Cfg} (h : c.wf = true) (t : Nat) : thrVar c t < 2 ^ c.pw := by
  simp only [Cfg.wf, Bool.and_eq_true, List.all_eq_true] at h
  obtain ⟨⟨⟨⟨-, -⟩, htargets⟩, -⟩, -⟩ := h
  cases ht : c.targets[t]? with
  | none => simp [thrVar, ht]
  | some x =>
    have hx := htargets x (List.mem_of_getElem? ht)
    simp only [TargetCfg.wf, decide_eq_true_eq] at hx
    simpa [thrVar, ht] using hx.1

/-! Masking with bits below `PW` reads the low `PW` bits only. -/

theorem lowPw_and {c : Cfg} {v : Nat} (hv : v < 2 ^ c.pw) (w : Nat) : lowPw c w &&& v = w &&& v := by
  apply Nat.eq_of_testBit_eq
  intro i
  simp only [lowPw, Nat.testBit_and, Nat.testBit_mod_two_pow]
  by_cases hi : i < c.pw
  · simp [hi]
  · simp [Nat.testBit_lt_two_pow (hv.trans_le (Nat.pow_le_pow_right (by omega) (Nat.le_of_not_lt hi)))]

theorem legalPrio_eq {c : Cfg} (h : c.wf = true) (s w : Nat) :
    legalPrio c s w = prioOne c s ||| (w &&& prioVar c s) := by
  rw [legalPrio, lowPw_and (prioBits_wf h s).2.2]

theorem legalThr_eq {c : Cfg} (h : c.wf = true) (t w : Nat) : legalThr c t w = w &&& thrVar c t := by
  rw [legalThr, lowPw_and (thrVar_lt h t)]

theorem legalPrio_idem {c : Cfg} (h : c.wf = true) (s w : Nat) : legalPrio c s (legalPrio c s w) = legalPrio c s w := by
  obtain ⟨hdisj, -⟩ := prioBits_wf h s
  rw [legalPrio_eq h, legalPrio_eq h, Nat.and_or_distrib_right, hdisj, Nat.zero_or, Nat.and_assoc, Nat.and_self]

theorem legalThr_idem {c : Cfg} (h : c.wf = true) (t w : Nat) : legalThr c t (legalThr c t w) = legalThr c t w := by
  rw [legalThr_eq h, legalThr_eq h, Nat.and_assoc, Nat.and_self]

/-- Settles O18: both legalisations are bitwise, and the masks are below `2 ^ PW`. -/
theorem legalPriorityAndThresholdBits : Obligations.LegalPriorityAndThresholdBits := by
  intro c h
  refine ⟨fun s w i => by simp [legalPrio_eq h], fun t w i => by simp [legalThr_eq h],
    fun s w => ⟨legalPrio_idem h s w, ?_⟩, fun t w => ⟨legalThr_idem h t w, ?_⟩, fun t => by simp [legalThr_eq h]⟩
  · obtain ⟨-, hone, hvar⟩ := prioBits_wf h s
    exact legalPrio_eq h s w ▸ Nat.or_lt_two_pow hone (Nat.and_lt_two_pow w hvar)
  · exact legalThr_eq h t w ▸ Nat.and_lt_two_pow w (thrVar_lt h t)

end Sys2Proof.Proofs
end

section
/-! PROOFS. What every step keeps (spec/10_state.md R46, spec/43_notification.md R173, spec/00_scope.md R7): each writer of
the state keeps `Settleable`, each effect is made of writers, and settling turns `Settleable` into the invariant. -/

namespace Sys2Proof.Proofs

open Sys2Proof Sys2Proof.Machine

/-- The clauses of `State.Inv` that do not speak of `EIP`: what an effect has to keep, the others being what `settle`
establishes (`Settleable.settle_inv`). -/
structure Settleable (st : State) : Prop where
  cfgWf : st.cfg.wf = true
  shape : st.Shape
  prioLegal : ∀ s, s ≤ numSources st.cfg → 1 ≤ s → st.prioOf s = legalPrio st.cfg s (st.prioOf s)
  thrLegal : ∀ t, t < numTargets st.cfg → st.thrOf t = legalThr st.cfg t (st.thrOf t)
  ieLegal : ∀ t, t < numTargets st.cfg → ∀ s, s ≤ numSources st.cfg → 1 ≤ s →
    (ieKind st.cfg t s = .hard0 → st.ieOf t s = false) ∧ (ieKind st.cfg t s = .hard1 → st.ieOf t s = true)
  cntBound : ∀ s, s ≤ numSources st.cfg → ∀ m, m ∈ cntMax st.cfg s → st.cntOf s ≤ m
  reqCounted : ∀ s, s ≤ numSources st.cfg → isEdgeCount st.cfg s = true → st.reqQOf s ≤ st.cntOf s
  cntElsewhere : ∀ s, s ≤ numSources st.cfg → isEdgeCount st.cfg s = false → st.cntOf s = 0
  lineElsewhere : ∀ s, s ≤ numSources st.cfg → isLevel st.cfg s = false → st.lineOf s = false
  inQ : ∀ r, r < st.cfg.reqs → (st.inQOf r).all (msgInRange st.cfg) = true
  outQ : ∀ r, r < st.cfg.reqs → (st.outQOf r).all (respInRange st.cfg) = true

theorem settleable_of_inv {st : State} (h : st.Inv) : Settleable st :=
  ⟨h.cfgWf, h.shape, h.prioLegal, h.thrLegal, h.ieLegal, h.cntBound, h.reqCounted, h.cntElsewhere, h.lineElsewhere,
    h.inQ, h.outQ⟩

theorem settle_shape {st : State} (h : st.Shape) : st.settle.Shape where
  __ := h
  notif := by
    rw [State.settle_notif]
    split
    · exact List.length_mapIdx.trans h.notif
    · exact h.notif
  seen0 := List.length_mapIdx.trans h.seen0
  seen1 := List.length_mapIdx.trans h.seen1

theorem Settleable.settle_inv {st : State} (h : Settleable st) : st.settle.Inv := by
  have hreads : ∀ t, t < numTargets st.cfg → _ := fun t ht =>
    settle_reads st t (h.shape.seen1 ▸ ht) (h.shape.seen0 ▸ ht) (h.shape.notif ▸ ht)
  refine ⟨h.cfgWf, settle_shape h.shape, h.prioLegal, h.thrLegal, h.ieLegal, h.cntBound, h.reqCounted, h.cntElsewhere,
    h.lineElsewhere, fun t ht heip => ?_, fun t ht heip => ?_, fun hwire t ht => ?_, h.inQ, h.outQ⟩
  · rw [settle_eip] at heip
    simp [(hreads t ht).1, heip]
  · rw [settle_eip] at heip
    simp [(hreads t ht).2.1, heip]
  · rw [State.settle_cfg] at hwire
    simp [(hreads t ht).2.2, hwire]

/-! What each writer keeps. -/

/-- What holds of every element still does after one is replaced by a value of which it holds. -/
theorem forall_at1_set1 {α : Type} {P : Nat → α → Prop} {d : α} {l : List α} {s : Nat} {v : α}
    (h : ∀ s', P s' (at1 d l s')) (hv : P s v) (s' : Nat) : P s' (at1 d (set1 l s v) s') := by
  rw [at1_set1]
  split
  · rename_i hs
    exact hs.1 ▸ hv
  · exact h s'

theorem forall_getD_set {α : Type} {P : Nat → α → Prop} {d : α} {l : List α} {t : Nat} {v : α}
    (h : ∀ t', P t' (l.getD t' d)) (hv : P t v) (t' : Nat) : P t' ((l.set t v).getD t' d) := by
  rw [getD_set]
  split
  · rename_i ht
    exact ht.1 ▸ hv
  · exact h t'

section Writers

variable {st : State}

theorem Settleable.setIp (h : Settleable st) (s : Nat) (v : Bool) : Settleable (st.setIp s v) where
  __ := h
  shape := { h.shape with ip := (set1_length _ _ _).trans h.shape.ip }

theorem Settleable.setBusy (h : Settleable st) (s : Nat) (v : Bool) : Settleable (st.setBusy s v) where
  __ := h
  shape := { h.shape with busy := (set1_length _ _ _).trans h.shape.busy }

theorem Settleable.setNotif (h : Settleable st) (t : Nat) (v : Bool) : Settleable (st.setNotif t v) where
  __ := h
  shape := { h.shape with notif := List.length_set.trans h.shape.notif }

theorem Settleable.setLine (h : Settleable st) {s : Nat} (hs : isLevel st.cfg s = true) (v : Bool) :
    Settleable (st.setLine s v) where
  __ := h
  shape := { h.shape with line := (set1_length _ _ _).trans h.shape.line }
  lineElsewhere := forall_at1_set1 (P := fun s x => s ≤ numSources st.cfg → isLevel st.cfg s = false → x = false)
    h.lineElsewhere fun _ hlevel => by simp [hs] at hlevel

theorem Settleable.setPrio (h : Settleable st) (s w : Nat) : Settleable (st.setPrio s (legalPrio st.cfg s w)) where
  __ := h
  shape := { h.shape with prio := (set1_length _ _ _).trans h.shape.prio }
  prioLegal := forall_at1_set1 (P := fun s x => s ≤ numSources st.cfg → 1 ≤ s → x = legalPrio st.cfg s x)
    h.prioLegal fun _ _ => (legalPrio_idem h.cfgWf s w).symm

theorem Settleable.setThr (h : Settleable st) (t w : Nat) : Settleable (st.setThr t (legalThr st.cfg t w)) where
  __ := h
  shape := { h.shape with thr := List.length_set.trans h.shape.thr }
  thrLegal := forall_getD_set (P := fun t x => t < numTargets st.cfg → x = legalThr st.cfg t x)
    h.thrLegal fun _ => (legalThr_idem h.cfgWf t w).symm

theorem Settleable.setCnt (h : Settleable st) {s v : Nat} (hkind : isEdgeCount st.cfg s = true)
    (hbound : ∀ m, m ∈ cntMax st.cfg s → v ≤ m) (hreq : st.reqQOf s ≤ v) : Settleable (st.setCnt s v) where
  __ := h
  shape := { h.shape with cnt := (set1_length _ _ _).trans h.shape.cnt }
  cntBound := forall_at1_set1 (P := fun s x => s ≤ numSources st.cfg → ∀ m, m ∈ cntMax st.cfg s → x ≤ m)
    h.cntBound fun _ => hbound
  reqCounted := forall_at1_set1
    (P := fun s x => s ≤ numSources st.cfg → isEdgeCount st.cfg s = true → st.reqQOf s ≤ x)
    h.reqCounted fun _ _ => hreq
  cntElsewhere := forall_at1_set1 (P := fun s x => s ≤ numSources st.cfg → isEdgeCount st.cfg s = false → x = 0)
    h.cntElsewhere fun _ hne => by simp [hkind] at hne

theorem Settleable.setReqQ (h : Settleable st) {s v : Nat} (hv : isEdgeCount st.cfg s = true → v ≤ st.cntOf s) :
    Settleable (st.setReqQ s v) where
  __ := h
  shape := { h.shape with reqQ := (set1_length _ _ _).trans h.shape.reqQ }
  reqCounted := forall_at1_set1
    (P := fun s x => s ≤ numSources st.cfg → isEdgeCount st.cfg s = true → x ≤ st.cntOf s)
    h.reqCounted fun _ => hv

theorem Settleable.setInQ (h : Settleable st) (r : Nat) {q : List Msg} (hq : q.all (msgInRange st.cfg) = true) :
    Settleable (st.setInQ r q) where
  __ := h
  shape := { h.shape with inQ := List.length_set.trans h.shape.inQ }
  inQ := forall_getD_set (P := fun r (x : List Msg) => r < st.cfg.reqs → x.all (msgInRange st.cfg) = true) h.inQ fun _ => hq

theorem Settleable.setOutQ (h : Settleable st) (r : Nat) {q : List Resp} (hq : q.all (respInRange st.cfg) = true) :
    Settleable (st.setOutQ r q) where
  __ := h
  shape := { h.shape with outQ := List.length_set.trans h.shape.outQ }
  outQ := forall_getD_set (P := fun r (x : List Resp) => r < st.cfg.reqs → x.all (respInRange st.cfg) = true) h.outQ fun _ => hq

theorem Settleable.setRcvd (h : Settleable st) (r : Nat) (q : List Resp) : Settleable (st.setRcvd r q) where
  __ := h
  shape := { h.shape with rcvd := List.length_set.trans h.shape.rcvd }

/-- A row that is legal bit by bit, for a target that exists. -/
theorem Settleable.setIeRow (h : Settleable st) {t : Nat} {row : List Bool} (hlen : row.length = numSources st.cfg)
    (hrow : ∀ s, s ≤ numSources st.cfg → 1 ≤ s → (ieKind st.cfg t s = .hard0 → at1 false row s = false)
      ∧ (ieKind st.cfg t s = .hard1 → at1 false row s = true)) : Settleable (st.setIeRow t row) where
  __ := h
  shape := { h.shape with
    ie := List.length_set.trans h.shape.ie
    ieRows := forall_getD_set (P := fun t (x : List Bool) => t < numTargets st.cfg → x.length = numSources st.cfg)
      h.shape.ieRows fun _ => hlen }
  ieLegal := forall_getD_set (P := fun t x => t < numTargets st.cfg → ∀ s, s ≤ numSources st.cfg → 1 ≤ s →
      (ieKind st.cfg t s = .hard0 → at1 false x s = false) ∧ (ieKind st.cfg t s = .hard1 → at1 false x s = true))
    h.ieLegal fun _ => hrow

/-! Queues. -/

/-- A queue that does not exist reads empty, so every queue holds messages in range only. -/
theorem Settleable.inQ_all (h : Settleable st) (r : Nat) : (st.inQOf r).all (msgInRange st.cfg) = true := by
  by_cases hr : r < st.cfg.reqs
  · exact h.inQ r hr
  · have hlen : st.inQ.length ≤ r := h.shape.inQ ▸ Nat.le_of_not_lt hr
    rw [State.inQOf, List.getD_eq_default _ _ hlen, List.all_nil]

theorem Settleable.outQ_all (h : Settleable st) (r : Nat) : (st.outQOf r).all (respInRange st.cfg) = true := by
  by_cases hr : r < st.cfg.reqs
  · exact h.outQ r hr
  · have hlen : st.outQ.length ≤ r := h.shape.outQ ▸ Nat.le_of_not_lt hr
    rw [State.outQOf, List.getD_eq_default _ _ hlen, List.all_nil]

theorem Settleable.dequeueIn (h : Settleable st) (r : Nat) : Settleable (st.dequeueIn r) :=
  h.setInQ r (List.all_eq_true.2 fun m hm => List.all_eq_true.1 (h.inQ_all r) m (List.mem_of_mem_tail hm))

theorem Settleable.enqueueIn (h : Settleable st) (r : Nat) {m : Msg} (hm : msgInRange st.cfg m = true) :
    Settleable (st.enqueueIn r m) :=
  h.setInQ r (by simp only [List.all_append, h.inQ_all r, List.all_cons, hm, List.all_nil, Bool.and_self])

theorem Settleable.enqueueOut (h : Settleable st) (r : Nat) {m : Resp} (hm : respInRange st.cfg m = true) :
    Settleable (st.enqueueOut r m) :=
  h.setOutQ r (by simp only [List.all_append, h.outQ_all r, List.all_cons, hm, List.all_nil, Bool.and_self])

theorem Settleable.deliver (h : Settleable st) (r : Nat) : Settleable (st.deliver r) :=
  (h.setRcvd r _).setOutQ r
    (List.all_eq_true.2 fun m hm => List.all_eq_true.1 (h.outQ_all r) m (List.mem_of_mem_tail hm))

end Writers

/-! What each effect keeps. -/

theorem forward_settleable {st : State} (h : Settleable st) {s : Nat}
    (hcount : isEdgeCount st.cfg s = true → st.reqQOf s + 1 ≤ st.cntOf s) : Settleable (forward s st) :=
  (h.setBusy s true).setReqQ hcount

theorem edgeIgnored_settleable {st : State} (h : Settleable st) {s : Nat} (hkind : isEdgeIgnore st.cfg s = true) :
    Settleable (edgeIgnored s st) := by
  obtain ⟨-, hlost⟩ | ⟨-, hforward⟩ := edgeIgnored_cases s st
  · rwa [hlost]
  · obtain hk | ⟨-, -, hk⟩ | hk := kind_cases st.cfg s (isSource_of_kind _ _ (.inr (.inl hkind)))
    · simp [hkind] at hk
    · exact hforward ▸ forward_settleable h fun hcount => by simp [hk] at hcount
    · simp [hkind] at hk

/-- A saturated counter is within its bound. -/
theorem saturate_le {c : Cfg} {s m : Nat} (h : m ∈ cntMax c s) (n : Nat) : saturate c s n ≤ m := by
  simp only [saturate, Option.mem_def.1 h]
  exact Nat.min_le_right n m

/-- Saturating does not take a counter below a value within its bound. -/
theorem le_saturate {c : Cfg} {s k n : Nat} (hbound : ∀ m, m ∈ cntMax c s → k ≤ m) (h : k ≤ n) : k ≤ saturate c s n := by
  cases hm : cntMax c s with
  | none => simpa only [saturate, hm]
  | some m => simpa only [saturate, hm] using Nat.le_min.2 ⟨h, hbound m hm⟩

theorem edgeCounted_settleable {st : State} (h : Settleable st) {s : Nat} (hkind : isEdgeCount st.cfg s = true) :
    Settleable (edgeCounted s st) := by
  obtain ⟨-, hle⟩ := (isSource_iff _ _).1 (isSource_of_kind _ _ (.inr (.inr hkind)))
  have hreq := h.reqCounted s hle hkind
  exact h.setCnt hkind (fun m hm => saturate_le hm _)
    (le_saturate (fun m hm => hreq.trans (h.cntBound s hle m hm)) (hreq.trans (Nat.le_succ _)))

theorem accepted_settleable {st : State} (h : Settleable st) {s : Nat} (hsrc : isSource st.cfg s = true) :
    Settleable (accepted s st) := by
  obtain ⟨hge, hle⟩ := (isSource_iff _ _).1 hsrc
  have hreq := h.reqCounted s hle
  have htaken := (h.setReqQ fun hcount => (Nat.sub_le _ 1).trans (hreq hcount)).setIp s true
  unfold accepted
  split
  case isTrue hcount =>
    refine htaken.setCnt hcount (fun m hm => (Nat.sub_le _ 1).trans (h.cntBound s hle m hm)) ?_
    have hself : at1 0 (set1 st.reqQ s (st.reqQOf s - 1)) s = st.reqQOf s - 1 :=
      at1_set1_self _ _ _ _ hge (h.shape.reqQ ▸ hle)
    exact hself.trans_le (Nat.sub_le_sub_right (hreq hcount) 1)
  case isFalse => exact htaken

theorem claimed_settleable {st : State} (h : Settleable st) (r t : Nat) : Settleable (claimed r t st) := by
  have hid : respInRange st.cfg (.cresp (st.best t)) = true := decide_eq_true (best_le st t)
  unfold claimed
  dsimp only
  split
  · exact h.enqueueOut r hid
  · exact (h.setIp _ false).enqueueOut r hid

theorem completed_settleable {st : State} (h : Settleable st) (t s : Nat) : Settleable (completed t s st) := by
  unfold completed
  split
  · exact h.setBusy s false
  · exact h

/-- A written row is legal: the bits the register holds are legalised and the others were legal (R132). -/
theorem writeIeRow_settleable {st : State} (h : Settleable st) {t : Nat} (ht : isTarget st.cfg t = true) (k w : Nat) :
    Settleable (st.setIeRow t (writeIeRow st.cfg t k w (st.ieRow t))) := by
  have ht' := (isTarget_iff _ _).1 ht
  have hlen := h.shape.ieRows t ht'
  refine h.setIeRow ((writeIeRow_length ..).trans hlen) fun s hle hge => ?_
  obtain ⟨h0, h1⟩ := h.ieLegal t ht' s hle hge
  rw [writeIeRow_at1, if_pos ⟨hge, hlen ▸ hle⟩]
  cases packedBit? st.cfg k w s with
  | none => exact ⟨h0, h1⟩
  | some b => exact ⟨fun hk => legalIE_hard0 hk b _, fun hk => legalIE_hard1 hk b _⟩

/-- What an enabled action does keeps every clause that does not speak of `EIP`. -/
theorem effect_settleable {i : Instr} {st : State} (h : Settleable st) (hen : enabled st i = true) :
    Settleable (effect i st) := by
  have hwf := wf_of_enabled hen
  cases i with
  | line s b => exact h.setLine hwf b
  | fwdL s =>
    refine forward_settleable h fun hcount => ?_
    obtain ⟨-, -, hk⟩ | hk | hk := kind_cases st.cfg s (isSource_of_kind _ _ (.inl hwf))
    · simp [hk] at hcount
    · simp [hk] at hcount
    · simp [Instr.wf, hk] at hwf
  | edgeI s => exact edgeIgnored_settleable h hwf
  | edgeC s => exact edgeCounted_settleable h hwf
  | fwdC s =>
    simp only [enabled, canForwardCount, Bool.and_eq_true, decide_eq_true_eq] at hen
    exact forward_settleable h fun _ => hen.2.1
  | msi s =>
    obtain ⟨hkind, he⟩ | ⟨hkind, he⟩ := effect_msi s st <;> rw [he]
    · exact edgeIgnored_settleable h hkind
    · exact edgeCounted_settleable h (by simpa [Instr.wf, hkind] using hwf)
  | wprio r s w => exact (h.dequeueIn r).setPrio s w
  | wie r t k w =>
    simp only [Instr.wf, msgInRange, Bool.and_eq_true] at hwf
    exact writeIeRow_settleable (h.dequeueIn r) hwf.2.1 k w
  | wthr r t w => exact (h.dequeueIn r).setThr t w
  | rprio r | rie r | rthr r | rip r => exact (h.dequeueIn r).enqueueOut r rfl
  | accept s => exact accepted_settleable h hwf
  | claim r t => exact claimed_settleable (h.dequeueIn r) r t
  | complete r t s => exact completed_settleable (h.dequeueIn r) t s
  | resp r => exact h.deliver r
  | notify t v => exact h.setNotif t v

theorem exec_keeps_inv {i : Instr} {st u : State} (hinv : st.Inv) (h : exec i st = .next u) : u.Inv := by
  obtain ⟨hen, rfl⟩ | ⟨-, rfl⟩ := exec_next h
  · exact (effect_settleable (settleable_of_inv hinv) hen).settle_inv
  · exact hinv

theorem rescheduled_inv {st : State} (h : st.Inv) (agenda : List Event) (tick : Nat) :
    (rescheduled st agenda tick).Inv where
  __ := h
  shape := { h.shape with }

theorem enqueueIn_inv {st : State} (h : st.Inv) (r : Nat) {m : Msg} (hm : msgInRange st.cfg m = true) :
    (st.enqueueIn r m).Inv where
  __ := h
  shape := ((settleable_of_inv h).enqueueIn r hm).shape
  inQ := ((settleable_of_inv h).enqueueIn r hm).inQ

/-- Settles O10: every effect is made of writers that keep `Settleable`, and settling gives the rest. -/
theorem stepKeepsStatesWellFormed : Obligations.StepKeepsStatesWellFormed := fun _ _ =>
  step_keeps (fun _ agenda tick h => rescheduled_inv h agenda tick) (fun _ r _ _ hm h => enqueueIn_inv h r hm)
    fun _ _ _ => exec_keeps_inv

/-! Configuration and history. -/

/-- A bit that is set stays set where bits are only added. -/
theorem getD_mapIdx_or {l : List Bool} {t : Nat} (f : Nat → Bool) (h : l.getD t false = true) :
    (l.mapIdx fun t b => b || f t).getD t false = true := by
  have ht : t < l.length := by
    by_contra hge
    rw [List.getD_eq_default _ _ (Nat.le_of_not_lt hge)] at h
    cases h
  rw [getD_mapIdx _ _ _ _ ht, h, Bool.true_or]

theorem settle_seen0Of_of_seen {st : State} {t : Nat} (h : st.seen0Of t = true) : st.settle.seen0Of t = true :=
  getD_mapIdx_or _ h

theorem settle_seen1Of_of_seen {st : State} {t : Nat} (h : st.seen1Of t = true) : st.settle.seen1Of t = true :=
  getD_mapIdx_or _ h

/-- The configuration is `st`'s and no history bit of `st` is cleared. -/
def Continues (st u : State) : Prop :=
  u.cfg = st.cfg ∧ ∀ t, (st.seen0Of t = true → u.seen0Of t = true) ∧ (st.seen1Of t = true → u.seen1Of t = true)

theorem Continues.trans {st u v : State} (h : Continues st u) (h' : Continues u v) : Continues st v :=
  ⟨h'.1.trans h.1, fun t => ⟨fun hs => (h'.2 t).1 ((h.2 t).1 hs), fun hs => (h'.2 t).2 ((h.2 t).2 hs)⟩⟩

theorem exec_continues {i : Instr} {st u : State} (h : exec i st = .next u) : Continues st u := by
  obtain ⟨-, rfl⟩ | ⟨-, rfl⟩ := exec_next h
  · have hf := effect_frame i st
    obtain ⟨hcfg, -⟩ := hf.model
    refine ⟨hcfg, fun t => ⟨fun hs => settle_seen0Of_of_seen ?_, fun hs => settle_seen1Of_of_seen ?_⟩⟩
    · rwa [State.seen0Of, hf.seen0]
    · rwa [State.seen1Of, hf.seen1]
  · exact ⟨rfl, fun t => ⟨id, id⟩⟩

/-- Settles O12: the effects leave configuration and history alone, and settling only sets history bits. -/
theorem stepKeepsConfigurationAndHistory : Obligations.StepKeepsConfigurationAndHistory := fun st _ =>
  step_keeps (P := Continues st) (fun _ _ _ h => h) (fun _ _ _ _ _ h => h) (fun _ _ _ h hi => h.trans (exec_continues hi))
    ⟨rfl, fun _ => ⟨id, id⟩⟩

/-! Notifications of past values. -/

/-- A notification that the guard of NOTIFY lets through is a past value (spec/43_notification.md R171). -/
theorem seen_of_canNotify {st : State} (hinv : st.Inv) {t : Nat} (ht : t < numTargets st.cfg) {v : Bool}
    (h : canNotify st t v = true) : (if v then st.seen1Of t else st.seen0Of t) = true := by
  unfold canNotify at h
  split at h
  · cases h
  · obtain rfl := of_decide_eq_true h
    split
    · exact hinv.seen1 t ht ‹_›
    · exact hinv.seen0 t ht (Bool.eq_false_iff.2 ‹_›)
  · exact h

theorem canNotify_of_enabled {st : State} {t : Nat} {v : Bool} (h : enabled st (.notify t v) = true) :
    canNotify st t v = true :=
  ((Bool.and_eq_true _ _).mp h).2

/-- Settling keeps past notifications past: `EIP` itself is one as soon as it is settled. -/
theorem settle_notifPast {st : State} (hshape : st.Shape) (h : st.NotifPast) : st.settle.NotifPast := by
  intro t ht
  obtain ⟨h1, h0, hn⟩ := settle_reads st t (hshape.seen1 ▸ ht) (hshape.seen0 ▸ ht) (hshape.notif ▸ ht)
  have hpast := h t ht
  rw [h1, h0, hn]
  by_cases hwire : st.cfg.notifyModel = .wire
  · rw [if_pos hwire]
    cases st.eip t <;> simp
  · rw [if_neg hwire]
    cases hv : st.notifOf t <;> simp_all

theorem effect_notifPast {i : Instr} {st : State} (hinv : st.Inv) (hpast : st.NotifPast) (hen : enabled st i = true) :
    (effect i st).NotifPast := by
  have hf := effect_frame i st
  obtain ⟨hcfg, -⟩ := hf.model
  obtain hnotif | ⟨t, v, rfl⟩ := hf.notif
  · intro t ht
    rw [State.notifOf, State.seen0Of, State.seen1Of, hnotif, hf.seen0, hf.seen1]
    exact hpast t (hcfg ▸ ht)
  · exact forall_getD_set (P := fun t (x : Bool) => t < numTargets st.cfg → (if x then st.seen1Of t else st.seen0Of t) = true)
      hpast fun ht => seen_of_canNotify hinv ht (canNotify_of_enabled hen)

theorem exec_keeps_notifPast {i : Instr} {st u : State} (hinv : st.Inv) (hpast : st.NotifPast)
    (h : exec i st = .next u) : u.NotifPast := by
  obtain ⟨hen, rfl⟩ | ⟨-, rfl⟩ := exec_next h
  · exact settle_notifPast (effect_settleable (settleable_of_inv hinv) hen).shape (effect_notifPast hinv hpast hen)
  · exact hpast

/-- Settles O11, together with the invariant, on which the guard under `sample` leans. -/
theorem stepKeepsNotificationsPast : Obligations.StepKeepsNotificationsPast := by
  intro st u hinv hpast h
  refine (step_keeps (P := fun x => x.Inv ∧ x.NotifPast) ?_ ?_ ?_ ⟨hinv, hpast⟩ h).2
  · exact fun _ agenda tick hx => ⟨rescheduled_inv hx.1 agenda tick, hx.2⟩
  · exact fun _ r _ _ hm hx => ⟨enqueueIn_inv hx.1 r hm, hx.2⟩
  · exact fun _ _ _ hx hi => ⟨exec_keeps_inv hx.1 hi, exec_keeps_notifPast hx.1 hx.2 hi⟩

end Sys2Proof.Proofs
end

section
/-! PROOFS. Events of the environment and the open choice (spec/20_memory.md R62, R70; logs 5, 11, 13). -/

namespace Sys2Proof.Proofs

open Sys2Proof Sys2Proof.Machine

/-! The open choice. -/

/-- An action that exists answers a next state: it fires or waits. -/
theorem exec_completes {i : Instr} {st : State} (hwf : i.wf st.cfg = true) : ∃ u, exec i st = .next u := by
  cases hen : enabled st i with
  | true => exact ⟨_, exec_of_enabled hen⟩
  | false => exact ⟨_, exec_of_disabled hwf hen⟩

theorem sendMsg_inRange {st : State} {r : Nat} {m : Msg} (hr : isReq st.cfg r = true) (hm : msgInRange st.cfg m = true) :
    sendMsg r m st = .next (st.enqueueIn r m) := by
  simp only [sendMsg, hr, hm, Bool.and_self, if_true]

/-- A read that stands for a message reaches a register, and the message is in range. -/
theorem busReadMeaning_message {c : Cfg} {addr n : Nat} {m : Msg} (h : busReadMeaning c addr n = .message m) :
    ∃ p, readPort? c.regMap addr = some p ∧ m = readMsg p ∧ msgInRange c m = true := by
  unfold busReadMeaning at h
  split at h
  · split at h
    case h_1 p hp =>
      split at h
      · obtain rfl := AccessMeaning.message.inj h
        exact ⟨p, hp, rfl, ‹_›⟩
      · cases h
    case h_2 => cases h
  · cases h

theorem busWriteMeaning_message {c : Cfg} {addr n w : Nat} {m : Msg} (h : busWriteMeaning c addr n w = .message m) :
    ∃ p, writePort? c.regMap addr = some p ∧ m = writeMsg w p ∧ msgInRange c m = true := by
  unfold busWriteMeaning at h
  split at h
  · split at h
    case h_1 p hp =>
      split at h
      · obtain rfl := AccessMeaning.message.inj h
        exact ⟨p, hp, rfl, ‹_›⟩
      · cases h
    case h_2 => cases h
  · cases h

theorem busReadMeaning_inRange {c : Cfg} {addr n : Nat} {m : Msg} (h : busReadMeaning c addr n = .message m) :
    msgInRange c m = true := by
  obtain ⟨-, -, -, hm⟩ := busReadMeaning_message h
  exact hm

theorem busWriteMeaning_inRange {c : Cfg} {addr n w : Nat} {m : Msg} (h : busWriteMeaning c addr n w = .message m) :
    msgInRange c m = true := by
  obtain ⟨-, -, -, hm⟩ := busWriteMeaning_message h
  exact hm

theorem accessBus_completes {st : State} {r : Nat} {a : AccessMeaning} (hr : isReq st.cfg r = true) (ha : a ≠ .refused)
    (hm : ∀ m, a = .message m → msgInRange st.cfg m = true) :
    ∃ u, accessBus r a st = .next u ∧ u.agenda = st.agenda ∧ u.tick = st.tick := by
  cases a with
  | message m => exact ⟨_, sendMsg_inRange hr (hm m rfl), rfl, rfl⟩
  | ignored => exact ⟨_, rfl, rfl, rfl⟩
  | refused => exact absurd rfl ha

/-- An event that the configured machine can take answers a next state and leaves the choices still to come. -/
theorem runEvent_completes {e : Event} {st : State} (h : admissible st.cfg e = true) :
    ∃ u, runEvent e st = .next u ∧ u.agenda = st.agenda ∧ u.tick = st.tick := by
  cases e with
  | action word =>
    simp only [admissible] at h
    split at h
    case h_1 i hword =>
      obtain ⟨u, hu⟩ := exec_completes h
      obtain ⟨-, hagenda, htick⟩ := exec_sameModel hu
      exact ⟨u, (runWord_ok hword st).trans hu, hagenda, htick⟩
    case h_2 => cases h
  | send r m =>
    obtain ⟨hr, hm⟩ := (Bool.and_eq_true _ _).mp h
    exact ⟨_, sendMsg_inRange hr hm, rfl, rfl⟩
  | busRead r addr n =>
    obtain ⟨hr, ha⟩ := (Bool.and_eq_true _ _).mp h
    exact accessBus_completes hr (of_decide_eq_true ha) fun _ => busReadMeaning_inRange
  | busWrite r addr bytes =>
    obtain ⟨hr, ha⟩ := (Bool.and_eq_true _ _).mp h
    exact accessBus_completes hr (of_decide_eq_true ha) fun _ => busWriteMeaning_inRange

/-- Settles O6: an admissible choice completes, any other idles. -/
theorem openChoiceNeverStops : Obligations.OpenChoiceNeverStops := by
  intro st hagenda
  rw [step_nil hagenda, runChoice]
  split
  case isTrue hadm =>
    obtain ⟨u, hu, hrest, htick⟩ := runEvent_completes hadm
    exact ⟨u, hu, htick, hrest.trans hagenda⟩
  case isFalse => exact ⟨_, rfl, rfl, hagenda⟩

/-! Sends and bus accesses. -/

/-- A send, and a bus access that stands for a message, do what `sendMsg` does. -/
theorem runEvent_message {e : Event} {st : State} {r : Nat} {m : Msg}
    (h : e = .send r m ∨ (∃ addr n, e = .busRead r addr n ∧ busReadMeaning st.cfg addr n = .message m)
      ∨ ∃ addr bytes, e = .busWrite r addr bytes
        ∧ busWriteMeaning st.cfg addr bytes.length (leValue bytes) = .message m) :
    runEvent e st = sendMsg r m st := by
  obtain rfl | ⟨addr, n, rfl, hmean⟩ | ⟨addr, bytes, rfl, hmean⟩ := h
  · rfl
  · simp only [runEvent, hmean, accessBus]
  · simp only [runEvent, hmean, accessBus]

/-- Settles O7: whatever event brings the message, the step is the sending of it. -/
theorem sentMessagesAreQueued : Obligations.SentMessagesAreQueued := by
  refine ⟨fun st r m e rest hagenda hinv hr hm he => ?_, fun st r addr bytes rest hagenda => ⟨?_, ?_⟩, ?_⟩
  · have hq := fun r' => enqueueIn_inQOf (rescheduled st rest st.tick) r r' m (hinv.shape.inQ ▸ hr)
    refine ⟨(rescheduled st rest st.tick).enqueueIn r m, ?_, (hq r).trans (if_pos rfl), fun r' hne =>
      (hq r').trans (if_neg hne), rfl, ⟨rfl, rfl, rfl⟩, ⟨rfl, rfl, rfl, rfl⟩, ⟨rfl, rfl, rfl⟩, rfl, rfl, rfl, rfl, rfl⟩
    have hrun : runEvent e (rescheduled st rest st.tick) = sendMsg r m (rescheduled st rest st.tick) :=
      runEvent_message he
    exact (step_cons hagenda).trans (hrun.trans (sendMsg_inRange ((isReq_iff _ _).2 hr) hm))
  · intro hignored
    simp only [step_cons hagenda, runEvent, hignored, accessBus]
  · intro hrefused
    simp only [step_cons hagenda, runEvent, hrefused, accessBus]
  · intro st r addr n rest hagenda hrefused
    simp only [step_cons hagenda, runEvent, hrefused, accessBus]

end Sys2Proof.Proofs
end

section
/-! PROOFS. Reset (spec/70_reset_and_hazards.md R230, R231; logs 3, 4): the default state read component by component. -/

namespace Sys2Proof.Proofs

open Sys2Proof Sys2Proof.Machine

/-! Lists over the sources and over the targets, read at an index. -/

theorem at1_map_sourceIds {α : Type} (c : Cfg) (f : Nat → α) (d : α) (s : Nat) :
    at1 d ((sourceIds c).map f) s = if isSource c s then f s else d := by
  cases s with
  | zero => simp [at1, isSource]
  | succ k =>
    by_cases hk : k < numSources c
    · simp [at1, sourceIds, isSource, List.getD_eq_getElem?_getD, hk, Nat.succ_le_of_lt hk]
    · simp [at1, sourceIds, isSource, List.getD_eq_getElem?_getD, hk, Nat.not_le_of_gt (Nat.lt_succ_of_le (Nat.le_of_not_lt hk))]

theorem getD_map_range {α : Type} (n : Nat) (f : Nat → α) (d : α) (t : Nat) :
    ((List.range n).map f).getD t d = if t < n then f t else d := by
  by_cases ht : t < n <;> simp [List.getD_eq_getElem?_getD, ht]

/-! The default of R231. -/

/-- The machine after reset where the platform gives no state. -/
def defaultState (c : Cfg) (lines : List Bool) : State := State.ofInit c (defaultInit c lines)

theorem resetOf_none {c : Cfg} (h : c.init = none) (lines : List Bool) : State.resetOf c lines = defaultState c lines := by
  simp only [State.resetOf, h, Option.getD_none, defaultState]

theorem resetOf_some {c : Cfg} {x : InitState} (h : c.init = some x) (lines : List Bool) :
    State.resetOf c lines = State.ofInit c x := by
  simp only [State.resetOf, h, Option.getD_some]

section Reads

variable (c : Cfg) (lines : List Bool)

@[simp] theorem defaultState_cfg : (defaultState c lines).cfg = c := rfl

@[simp] theorem defaultState_ipOf (s : Nat) : (defaultState c lines).ipOf s = false :=
  (at1_map_sourceIds c _ _ s).trans (ite_self _)

@[simp] theorem defaultState_prioOf (s : Nat) :
    (defaultState c lines).prioOf s = if isSource c s then prioOne c s else 0 :=
  at1_map_sourceIds c _ _ s

@[simp] theorem defaultState_busyOf (s : Nat) : (defaultState c lines).busyOf s = false :=
  (at1_map_sourceIds c _ _ s).trans (ite_self _)

@[simp] theorem defaultState_cntOf (s : Nat) : (defaultState c lines).cntOf s = 0 :=
  (at1_map_sourceIds c _ _ s).trans (ite_self _)

@[simp] theorem defaultState_lineOf (s : Nat) :
    (defaultState c lines).lineOf s = if isSource c s then (isLevel c s && at1 false lines s) else false :=
  at1_map_sourceIds c _ _ s

@[simp] theorem defaultState_reqQOf (s : Nat) : (defaultState c lines).reqQOf s = 0 :=
  (at1_map_sourceIds c _ _ s).trans (ite_self _)

@[simp] theorem defaultState_ieRow (t : Nat) : (defaultState c lines).ieRow t
    = if t < numTargets c then (sourceIds c).map fun s => decide (ieKind c t s = .hard1) else [] :=
  getD_map_range _ _ _ t

theorem defaultState_ieOf {t s : Nat} (ht : t < numTargets c) (hs : isSource c s = true) :
    (defaultState c lines).ieOf t s = decide (ieKind c t s = .hard1) := by
  rw [State.ieOf, defaultState_ieRow, if_pos ht, at1_map_sourceIds, if_pos hs]

@[simp] theorem defaultState_thrOf (t : Nat) : (defaultState c lines).thrOf t = 0 :=
  (getD_map_range _ _ _ t).trans (ite_self _)

@[simp] theorem defaultState_notifOf (t : Nat) : (defaultState c lines).notifOf t = false :=
  (getD_map_range _ _ _ t).trans (ite_self _)

@[simp] theorem defaultState_seen0Of (t : Nat) : (defaultState c lines).seen0Of t = decide (t < numTargets c) := by
  refine (getD_map_range _ _ _ t).trans ?_
  split <;> simp_all

@[simp] theorem defaultState_seen1Of (t : Nat) : (defaultState c lines).seen1Of t = false :=
  (getD_map_range _ _ _ t).trans (ite_self _)

@[simp] theorem defaultState_inQOf (r : Nat) : (defaultState c lines).inQOf r = [] :=
  (getD_map_range _ _ _ r).trans (ite_self _)

@[simp] theorem defaultState_outQOf (r : Nat) : (defaultState c lines).outQOf r = [] :=
  (getD_map_range _ _ _ r).trans (ite_self _)

/-- Nothing has been received, in the default state and in a given one (log 12). -/
theorem ofInit_rcvdOf (x : InitState) (r : Nat) : (State.ofInit c x).rcvdOf r = [] :=
  (getD_map_range _ _ _ r).trans (ite_self _)

theorem defaultState_eip (t : Nat) : (defaultState c lines).eip t = false := by
  simp [Bool.eq_false_iff, eip_iff]

theorem defaultState_notifPast : (defaultState c lines).NotifPast := by
  intro t ht
  simpa using ht

end Reads

theorem defaultState_shape (c : Cfg) (lines : List Bool) : (defaultState c lines).Shape := by
  constructor
  case ieRows =>
    intro t ht
    rw [defaultState_cfg] at ht
    simp [ht, sourceIds]
  all_goals simp [defaultState, defaultInit, sourceIds]

/-- The hardwired ones alone are a legal priority. -/
theorem legalPrio_prioOne {c : Cfg} (h : c.wf = true) (s : Nat) : legalPrio c s (prioOne c s) = prioOne c s := by
  rw [legalPrio_eq h, (prioBits_wf h s).1, Nat.or_zero]

theorem defaultState_inv {c : Cfg} (h : c.wf = true) (lines : List Bool) : (defaultState c lines).Inv where
  cfgWf := h
  shape := defaultState_shape c lines
  prioLegal s hle hge := by simp [(isSource_iff c s).2 ⟨hge, hle⟩, legalPrio_prioOne h]
  thrLegal t _ := by simp [legalThr_eq h]
  ieLegal t ht s hle hge := by
    rw [defaultState_ieOf c lines ht ((isSource_iff c s).2 ⟨hge, hle⟩), defaultState_cfg]
    exact ⟨fun hk => by simp [hk], fun hk => by simp [hk]⟩
  cntBound := by simp
  reqCounted := by simp
  cntElsewhere := by simp
  lineElsewhere s _ hlevel := by
    rw [defaultState_cfg] at hlevel
    simp [hlevel]
  seen1 t _ heip := by simp [defaultState_eip] at heip
  seen0 t ht _ := by simpa using ht
  wire := by simp [defaultState_eip]
  inQ := by simp
  outQ := by simp

/-- A state that the platform gives satisfies R46 because the configuration is well-formed. -/
theorem ofInit_inv {c : Cfg} (h : c.wf = true) {x : InitState} (hx : c.init = some x) : (State.ofInit c x).Inv := by
  refine (inv_iff_legal _).2 ⟨h, ?_⟩
  simp only [Cfg.wf, hx, Option.all_some, Bool.and_eq_true] at h
  exact h.2

theorem resetOf_inv {c : Cfg} (h : c.wf = true) (lines : List Bool) : (State.resetOf c lines).Inv := by
  cases hx : c.init with
  | none => exact resetOf_none hx lines ▸ defaultState_inv h lines
  | some x => exact resetOf_some hx lines ▸ ofInit_inv h hx

/-- Settles O8; `State.reset` is the default state of a configuration whose well-formedness is decided. -/
theorem resetIsWellFormed : Obligations.ResetIsWellFormed := by
  have hvectors : Config.vectorsA.wf = true := by decide
  refine ⟨fun c lines h => ⟨resetOf_inv h lines, fun hnone => ?_⟩, resetOf_inv hvectors [], defaultState_notifPast _ _⟩
  rw [resetOf_none hnone]
  exact ⟨defaultState_notifPast c lines, defaultState_eip c lines⟩

/-- Settles O9: the default state read component by component; a given one is taken as it is. -/
theorem resetLeavesTheseValues : Obligations.ResetLeavesTheseValues := by
  refine ⟨fun c lines _ hnone => ?_, fun c lines x u _ hx hu => ?_⟩
  · rw [resetOf_none hnone]
    refine ⟨fun s hs => ?_, fun t ht => ?_, fun r => ⟨by simp, by simp, ofInit_rcvdOf c _ r⟩⟩
    · simp +contextual [hs]
    · rw [isTarget_iff] at ht
      simp +contextual [ht, defaultState_ieOf]
  · obtain rfl := hu.trans (resetOf_some hx lines)
    exact ⟨rfl, rfl, rfl, rfl, rfl, rfl, rfl, rfl, rfl, rfl, rfl, rfl, rfl, ofInit_rcvdOf c x⟩

end Sys2Proof.Proofs
end

section
/-! PROOFS. What `EIP` says of claims (spec/10_state.md R44, spec/41_registers.md R142), and the gateways' actions
(spec/40_gateways.md R111 to R118). -/

namespace Sys2Proof.Proofs

open Sys2Proof Sys2Proof.Machine

/-! `EIP` and `best`. -/

theorem elig_iff (st : State) (t s : Nat) :
    st.elig t s = true ↔ st.ipOf s = true ∧ st.ieOf t s = true ∧ st.prioOf s ≠ 0 := by
  simp only [State.elig, State.active, Bool.and_eq_true, decide_eq_true_eq, and_assoc]

/-- What is best is a source that is eligible (spec/10_state.md R39). -/
theorem best_elig {st : State} {t : Nat} (h : st.best t ≠ 0) :
    isSource st.cfg (st.best t) = true ∧ st.elig t (st.best t) = true := by
  obtain ⟨hzero, -⟩ | ⟨hsrc, hel, -⟩ := best_cases st t
  · exact absurd hzero h
  · exact ⟨hsrc, hel⟩

theorem best_ne_zero_of_elig {st : State} {t s : Nat} (hsrc : isSource st.cfg s = true) (hel : st.elig t s = true) :
    st.best t ≠ 0 := by
  intro hzero
  simp [(best_eq_zero_iff st t).1 hzero s hsrc] at hel

theorem best_ne_zero_of_eip {st : State} {t : Nat} (h : st.eip t = true) : st.best t ≠ 0 := by
  obtain ⟨s, hsrc, hip, hie, habove⟩ := (eip_iff st t).1 h
  exact best_ne_zero_of_elig hsrc ((elig_iff st t s).2 ⟨hip, hie, Nat.ne_zero_of_lt habove⟩)

/-- Settles O15: a source above a threshold is eligible, and where the threshold is 0 eligible is above it. -/
theorem eipAgainstClaimsAndThresholds : Obligations.EipAgainstClaimsAndThresholds := by
  intro st t
  refine ⟨best_ne_zero_of_eip, fun hmasked => ?_, fun hthr => ⟨best_ne_zero_of_eip, fun hbest => ?_⟩, ?_⟩
  · rw [Bool.eq_false_iff, Ne, eip_iff]
    rintro ⟨s, hsrc, -, -, habove⟩
    exact absurd (hmasked s hsrc) (Nat.not_le_of_gt habove)
  · obtain ⟨hsrc, hel⟩ := best_elig hbest
    obtain ⟨hip, hie, hprio⟩ := (elig_iff _ _ _).1 hel
    exact (eip_iff st t).2 ⟨_, hsrc, hip, hie, hthr ▸ Nat.pos_of_ne_zero hprio⟩
  · rintro s hprio rfl
    by_contra hbest
    exact ((elig_iff _ _ _).1 (best_elig hbest).2).2.2 hprio

/-! LINE. -/

/-- Settles O20: LINE is a write of one level, and `settle` reads no level. -/
theorem lineSetsTheLevel : Obligations.LineSetsTheLevel := by
  intro st s b hinv hlevel
  obtain ⟨hge, hle⟩ := (isSource_iff _ _).1 (isSource_of_kind _ _ (.inl hlevel))
  have hlen : s ≤ st.line.length := hinv.shape.line ▸ hle
  have hen : enabled st (.line s b) = true := by simp [enabled, Instr.wf, hlevel]
  refine ⟨st.setLine s b, (exec_of_enabled hen).trans (congrArg _ (settle_setLine hinv s b)),
    at1_set1_self _ _ _ _ hge hlen, fun s' => at1_set1_ne _ _ _ _ _, rfl, rfl, rfl, rfl, ⟨rfl, rfl, rfl⟩,
    ⟨rfl, rfl, rfl⟩, ⟨rfl, rfl, rfl⟩, ⟨rfl, rfl, rfl⟩, ?_⟩
  rintro rfl
  exact congrArg (fun l => { st with line := l }) (set1_same false st.line s hlen)

/-! Forwarding. -/

theorem forward_forwarded {st : State} (hinv : st.Inv) {s : Nat} (hsrc : isSource st.cfg s = true)
    (hidle : st.busyOf s = false) : Forwarded s st (forward s st) :=
  settle_forward hinv s ▸ forward_settle_forwarded hsrc hidle

/-- While a completion is awaited no gateway forwards (spec/40_gateways.md R112, R115). -/
theorem forwarding_disabled {st : State} {s : Nat} (h : st.busyOf s = true) {i : Instr}
    (hi : i = .fwdL s ∨ i = .fwdC s) : enabled st i = false := by
  obtain rfl | rfl := hi <;> simp [enabled, canForwardLevel, canForwardCount, h]

/-- Settles O21: the enabled action forwards, after which its guard is false. -/
theorem forwardingSendsOneRequest : Obligations.ForwardingSendsOneRequest := by
  intro st s hinv hidle i hi
  have hsrc : isSource st.cfg s = true := by
    obtain ⟨-, hkind, -⟩ | ⟨-, hkind, -⟩ := hi
    · exact isSource_of_kind _ _ (.inl hkind)
    · exact isSource_of_kind _ _ (.inr (.inr hkind))
  have hen : enabled st i = true := by
    obtain ⟨rfl, hkind, hguard⟩ | ⟨rfl, hkind, hguard⟩ := hi <;>
      simpa [enabled, Instr.wf, canForwardLevel, canForwardCount, hidle, hkind] using hguard
  have heffect : effect i st = forward s st := by obtain ⟨rfl, -⟩ | ⟨rfl, -⟩ := hi <;> rfl
  have hf := forward_forwarded hinv hsrc hidle
  obtain ⟨hbusy, hreqQ⟩ := hf.reads_self hinv.shape
  obtain ⟨-, -, hip, hcnt, hline, hregs, hqueues, hnotif, hmodel⟩ := forward_fields s st
  have hwf : i.wf st.cfg = true := wf_of_enabled hen
  have hagain : exec i (forward s st) = .next (forward s st) :=
    exec_of_disabled hwf (forwarding_disabled hbusy (hi.imp And.left And.left))
  exact ⟨forward s st, by rw [exec_of_enabled hen, heffect, settle_forward hinv], hbusy, hreqQ, fun _ => hf.reads_ne,
    hip, hcnt, hline, hregs, hqueues, hnotif, hmodel, hagain⟩

/-! Edges and message-signalled interrupts. -/

/-- What an edge does at a counting gateway (spec/40_gateways.md R114): it writes the one counter. -/
theorem edgeCounted_reads {st : State} (hinv : st.Inv) {s : Nat} (hkind : isEdgeCount st.cfg s = true) :
    (edgeCounted s st).cntOf s = saturate st.cfg s (st.cntOf s + 1)
      ∧ ∀ s', s' ≠ s → (edgeCounted s st).cntOf s' = st.cntOf s' := by
  obtain ⟨hge, hle⟩ := (isSource_iff _ _).1 (isSource_of_kind _ _ (.inr (.inr hkind)))
  exact ⟨at1_set1_self 0 st.cnt s _ hge (hinv.shape.cnt ▸ hle), fun s' => at1_set1_ne 0 st.cnt s s' _⟩

theorem exec_edgeC {st : State} (hinv : st.Inv) {s : Nat} (hkind : isEdgeCount st.cfg s = true) :
    exec (.edgeC s) st = .next (edgeCounted s st) := by
  have hen : enabled st (.edgeC s) = true := by simp [enabled, Instr.wf, hkind]
  have hsettled : (edgeCounted s st).settle = edgeCounted s st := settle_of_core hinv rfl rfl rfl rfl rfl rfl rfl rfl
  exact (exec_of_enabled hen).trans (congrArg _ hsettled)

/-- Settles O23: `saturate` is the bound of R114. -/
theorem edgeAtCountingGateway : Obligations.EdgeAtCountingGateway := by
  intro st s hinv hkind
  obtain ⟨hself, hother⟩ := edgeCounted_reads hinv hkind
  refine ⟨edgeCounted s st, exec_edgeC hinv hkind, fun hnone => ?_, fun m hm => ?_, hother, rfl, rfl, rfl, rfl,
    ⟨rfl, rfl, rfl⟩, ⟨rfl, rfl, rfl⟩, ⟨rfl, rfl, rfl⟩, ⟨rfl, rfl, rfl⟩⟩
  · rw [hself]
    simp only [saturate, hnone]
  · rw [hself]
    simp only [saturate, hm]
    split <;> omega

/-- An MSI runs as the edge action of its gateway's kind (spec/40_gateways.md R116). -/
theorem exec_msi {st : State} (s : Nat) :
    (isEdgeIgnore st.cfg s = true → exec (.msi s) st = exec (.edgeI s) st)
      ∧ (isEdgeCount st.cfg s = true → exec (.msi s) st = exec (.edgeC s) st) := by
  constructor
  · intro hkind
    simp [exec, execMsi, execEdgeI, hkind]
  · intro hkind
    obtain hk | hk | ⟨-, hignore, -⟩ := kind_cases st.cfg s (isSource_of_kind _ _ (.inr (.inr hkind)))
    · simp [hkind] at hk
    · simp [hkind] at hk
    · simp [exec, execMsi, execEdgeC, hkind, hignore]

/-- Settles O24: the MSI is the edge, and a level source has no edge action. -/
theorem msiActsAsAnEdge : Obligations.MsiActsAsAnEdge := by
  intro st s hinv
  refine ⟨fun hkind => ?_, fun hkind => ?_, fun hlevel => ?_⟩
  · rw [(exec_msi s).1 hkind]
    cases hbusy : st.busyOf s with
    | true =>
      have hlost := (edgeAtIgnoringGateway st s hinv hkind).2 hbusy
      exact ⟨st, hlost, hlost, hbusy, rfl, fun _ _ => ⟨rfl, rfl⟩, rfl, rfl, rfl, ⟨rfl, rfl, rfl⟩, ⟨rfl, rfl, rfl⟩,
        ⟨rfl, rfl, rfl⟩, ⟨rfl, rfl, rfl⟩⟩
    | false =>
      obtain ⟨u, hforward, hframe⟩ := (edgeAtIgnoringGateway st s hinv hkind).1 hbusy
      exact ⟨u, hforward, hforward, hframe⟩
  · rw [(exec_msi s).2 hkind]
    obtain ⟨hself, hother⟩ := edgeCounted_reads hinv hkind
    have hedge := exec_edgeC hinv hkind
    exact ⟨edgeCounted s st, hedge, hedge, hself, hother, rfl, rfl, rfl, rfl, ⟨rfl, rfl, rfl⟩, ⟨rfl, rfl, rfl⟩,
      ⟨rfl, rfl, rfl⟩, ⟨rfl, rfl, rfl⟩⟩
  · obtain ⟨-, hignore, hcount⟩ | hk | hk := kind_cases st.cfg s (isSource_of_kind _ _ (.inl hlevel))
    · exact exec_of_missing (by simp [Instr.wf, hignore, hcount])
    · simp [hlevel] at hk
    · simp [hlevel] at hk

/-! Completions at the gateway. -/

/-- The state after the action COMPLETE of a queue's head (spec/42_claim_completion.md R154). -/
def completionTaken (r t s : Nat) (st : State) : State := completed t s (st.dequeueIn r)

/-- A completion touches nothing that `settle` reads. -/
theorem exec_complete_head {st : State} (hinv : st.Inv) {r t s : Nat}
    (hhead : (st.inQOf r).head? = some (.complete t s)) :
    exec (.complete r t s) st = .next (completionTaken r t s st) := by
  obtain ⟨-, hip, -, -, -, ⟨hprio, hie, hthr⟩, -, ⟨hnotif, hseen0, hseen1⟩, ⟨hcfg, -⟩⟩ :=
    completed_fields t s (st.dequeueIn r)
  exact (exec_head hinv hhead).trans (congrArg _ (settle_of_core hinv hcfg hip hie hprio hthr hnotif hseen0 hseen1))

/-- Beside the `busy` bit of its source the completion takes its message and nothing else. -/
theorem completionTaken_fields (r t s : Nat) (st : State) :
    (completionTaken r t s st).busy = (if st.ieOf t s then set1 st.busy s false else st.busy)
      ∧ (completionTaken r t s st).cnt = st.cnt ∧ (completionTaken r t s st).line = st.line
      ∧ (completionTaken r t s st).reqQ = st.reqQ ∧ (completionTaken r t s st).ip = st.ip
      ∧ SameRegisters st (completionTaken r t s st) ∧ Dequeued r st (completionTaken r t s st)
      ∧ (completionTaken r t s st).outQ = st.outQ ∧ SameNotifications st (completionTaken r t s st)
      ∧ SameModel st (completionTaken r t s st) := by
  obtain ⟨hbusy, hip, hcnt, hline, hreqQ, hregs, ⟨hinQ, houtQ, hrcvd⟩, hnotif, hmodel⟩ :=
    completed_fields t s (st.dequeueIn r)
  obtain ⟨htaken, hothers, -⟩ := dequeueIn_dequeued r st
  refine ⟨hbusy, hcnt, hline, hreqQ, hip, hregs, ⟨?_, fun r' hne => ?_, hrcvd⟩, houtQ, hnotif, hmodel⟩
  · exact (congrArg (·.getD r []) hinQ).trans htaken
  · exact (congrArg (·.getD r' []) hinQ).trans (hothers r' hne)

theorem completionTaken_busyOf {st : State} (hshape : st.Shape) (r t : Nat) {s : Nat} (hsrc : isSource st.cfg s = true) :
    (completionTaken r t s st).busyOf s = (st.busyOf s && !st.ieOf t s)
      ∧ ∀ s', s' ≠ s → (completionTaken r t s st).busyOf s' = st.busyOf s' := by
  obtain ⟨hge, hle⟩ := (isSource_iff _ _).1 hsrc
  obtain ⟨hbusy, -⟩ := completionTaken_fields r t s st
  unfold State.busyOf
  rw [hbusy]
  cases st.ieOf t s with
  | true =>
    refine ⟨?_, fun s' => at1_set1_ne _ _ _ _ _⟩
    simp [at1_set1_self _ _ _ _ hge (hshape.busy ▸ hle : s ≤ st.busy.length)]
  | false => simp

/-- The source of a completion at the head of a queue exists. -/
theorem source_of_complete_head {st : State} (hinv : st.Inv) {r t s : Nat}
    (hhead : (st.inQOf r).head? = some (.complete t s)) : isSource st.cfg s = true := by
  obtain ⟨-, hrange⟩ := head_inRange hinv hhead
  exact ((Bool.and_eq_true _ _).mp hrange).2

/-- Settles O39: the head's COMPLETE leads to `completionTaken`. -/
theorem completionReleasesTheGateway : Obligations.CompletionReleasesTheGateway := by
  intro st r t s hinv hhead
  obtain ⟨hself, hother⟩ := completionTaken_busyOf hinv.shape r t (source_of_complete_head hinv hhead)
  obtain ⟨hbusy, hcnt, hline, hreqQ, hip, hregs, hdequeued, houtQ, hnotif, hmodel⟩ := completionTaken_fields r t s st
  obtain ⟨hprio, hie, hthr⟩ := hregs
  refine ⟨completionTaken r t s st, exec_complete_head hinv hhead, fun hen => ?_, fun hdrop => ?_, hother, hcnt, hline,
    hreqQ, hip, ⟨hprio, hie, hthr⟩, hdequeued, houtQ, hnotif, hmodel, eip_of_fields hmodel.1 hip hie hprio hthr⟩
  · rw [hself, hen, Bool.not_true, Bool.and_false]
  · rw [hbusy, hdrop]
    rfl

theorem enabled_fwdL (st : State) (s : Nat) :
    enabled st (.fwdL s) = true ↔ isLevel st.cfg s = true ∧ st.lineOf s = true ∧ st.busyOf s = false := by
  simp only [enabled, Instr.wf, canForwardLevel, Bool.and_eq_true, Bool.not_eq_true']

/-- Settles O27: the completion clears `busy` and leaves the level. -/
theorem levelStillAssertedForwardsAgain : Obligations.LevelStillAssertedForwardsAgain := by
  intro st r t s hinv hlevel hie hhead
  obtain ⟨u, hexec, hfree, -, -, -, hline, -, -, -, -, -, -, hmodel, -⟩ :=
    completionReleasesTheGateway st r t s hinv hhead
  refine ⟨u, hexec, hfree hie, ?_⟩
  simp [enabled_fwdL, hmodel.1, hlevel, hfree hie, State.lineOf, hline]

end Sys2Proof.Proofs
end

section
/-! PROOFS. Register reads (spec/41_registers.md R135 to R138, R140; D6, log 24): the answer joins the requester's
responses, and settling finds nothing to do. -/

namespace Sys2Proof.Proofs

open Sys2Proof Sys2Proof.Machine

/-- The state after a message of `r` that is only answered. -/
def answered (r : Nat) (m : Resp) (st : State) : State := (st.dequeueIn r).enqueueOut r m

theorem settle_answered {st : State} (hinv : st.Inv) (r : Nat) (m : Resp) :
    (answered r m st).settle = answered r m st :=
  settle_of_core hinv rfl rfl rfl rfl rfl rfl rfl rfl

/-- A requester with a message in its queue has a queue of responses. -/
theorem outQ_length_of_head {st : State} (hinv : st.Inv) {r : Nat} {m : Msg} (hhead : (st.inQOf r).head? = some m) :
    r < st.outQ.length :=
  hinv.shape.outQ ▸ (isReq_iff _ _).1 (head_inRange hinv hhead).1

theorem enqueueOut_answered {st : State} {r : Nat} (h : r < st.outQ.length) (m : Resp) :
    Answered r m st (st.enqueueOut r m) :=
  ⟨(enqueueOut_outQOf st r r m h).trans (if_pos rfl), fun r' hne => (enqueueOut_outQOf st r r' m h).trans (if_neg hne)⟩

theorem answered_fields {st : State} {r : Nat} (h : r < st.outQ.length) (m : Resp) :
    Answered r m st (answered r m st) ∧ Dequeued r st (answered r m st) ∧ (answered r m st).ip = st.ip
      ∧ SameRegisters st (answered r m st) ∧ SameGateways st (answered r m st)
      ∧ SameNotifications st (answered r m st) ∧ SameModel st (answered r m st) :=
  ⟨enqueueOut_answered (st := st.dequeueIn r) h m, dequeueIn_dequeued r st, rfl, ⟨rfl, rfl, rfl⟩, ⟨rfl, rfl, rfl, rfl⟩,
    ⟨rfl, rfl, rfl⟩, ⟨rfl, rfl, rfl⟩⟩

/-- A read at the head of a queue, whose effect is an answer, completes with it. -/
theorem exec_read_head {st : State} (hinv : st.Inv) {r : Nat} {m : Msg} (hhead : (st.inQOf r).head? = some m) {v : Nat}
    (heffect : effect (processing r m) st = answered r (.rresp v) st) :
    exec (processing r m) st = .next (answered r (.rresp v) st) := by
  rw [exec_head hinv hhead, heffect, settle_answered hinv]

/-- Settles O31. -/
theorem readsOfPriorityAndThreshold : Obligations.ReadsOfPriorityAndThreshold := by
  intro st r i m v hinv hhead hread
  have hexec : exec i st = .next (answered r (.rresp v) st) := by
    obtain ⟨s, rfl, rfl, rfl⟩ | ⟨t, rfl, rfl, rfl⟩ := hread <;> exact exec_read_head hinv hhead rfl
  exact ⟨_, hexec, answered_fields (outQ_length_of_head hinv hhead) _⟩

/-- Settles O32: the answer is the packed register, whose bits `packReg_testBit` gives. -/
theorem readsOfPackedBits : Obligations.ReadsOfPackedBits := by
  intro st r k i m f hinv hhead hread
  have hexec : exec i st = .next (answered r (.rresp (packReg st.cfg f k)) st) := by
    obtain ⟨t, rfl, rfl, rfl⟩ | ⟨rfl, rfl, rfl⟩ := hread <;> exact exec_read_head hinv hhead rfl
  obtain ⟨hanswered, hdequeued, hframe⟩ := answered_fields (outQ_length_of_head hinv hhead) (.rresp (packReg st.cfg f k))
  exact ⟨_, _, hexec, hanswered, hdequeued, packReg_testBit st.cfg f k, hframe⟩

/-! Discovery. -/

/-- A write of a priority and the read of it after: the value read is the legal one (spec/41_registers.md R140). -/
theorem write_then_read_priority {st : State} (hinv : st.Inv) {r s w : Nat} {q : List Msg}
    (hq : st.inQOf r = .wprio s w :: .rprio s :: q) :
    ∃ u v, exec (.wprio r s w) st = .next u ∧ exec (.rprio r s) u = .next v ∧ v.cfg = st.cfg ∧ v.inQOf r = q
      ∧ v.prioOf s = legalPrio st.cfg s w ∧ v.outQOf r = st.outQOf r ++ [.rresp (legalPrio st.cfg s w)] := by
  have hhead : (st.inQOf r).head? = some (.wprio s w) := by rw [hq]; rfl
  have hwrite := exec_wprio_head hinv hhead
  have hprio := prioWritten_prioOf_self hinv.shape r (head_inRange hinv hhead).2 w
  have hqueue : (prioWritten r s w st).inQOf r = .rprio s :: q :=
    (dequeueIn_dequeued r st).1.trans (by rw [hq]; rfl)
  have hhead' : ((prioWritten r s w st).inQOf r).head? = some (.rprio s) := by rw [hqueue]; rfl
  have hinv' := exec_keeps_inv hinv hwrite
  obtain ⟨⟨hanswer, -⟩, ⟨hdequeued, -⟩, -⟩ := answered_fields (outQ_length_of_head hinv' hhead')
    (.rresp (legalPrio st.cfg s w))
  refine ⟨_, _, hwrite, exec_read_head (v := legalPrio st.cfg s w) hinv' hhead' ?_, rfl, ?_, hprio, hanswer⟩
  · exact congrArg (fun v => answered r (.rresp v) _) hprio
  · exact hdequeued.trans (by rw [hqueue]; rfl)

theorem legalPrio_ones {c : Cfg} (h : c.wf = true) (s : Nat) :
    legalPrio c s (2 ^ c.pw - 1) = prioOne c s ||| prioVar c s := by
  rw [legalPrio_eq h, Nat.and_comm, Nat.and_two_pow_sub_one_of_lt_two_pow (prioBits_wf h s).2.2]

/-- The bits that the discovery finds to differ are the variable ones. -/
theorem variable_bits_xor {a v : Nat} (h : a &&& v = 0) : (a ||| v) ^^^ a = v := by
  apply Nat.eq_of_testBit_eq
  intro i
  have hi := congrArg (Nat.testBit · i) h
  simp only [Nat.testBit_and, Nat.zero_testBit] at hi
  simp only [Nat.testBit_xor, Nat.testBit_or]
  cases ha : a.testBit i <;> cases hv : v.testBit i <;> simp_all

/-- Settles O19: two writes and reads, and the legal values are the hardwired ones with any part of the variable bits. -/
theorem discoveryFindsThePriorityBits : Obligations.DiscoveryFindsThePriorityBits := by
  intro st r s q hinv hq
  have hwf := hinv.cfgWf
  obtain ⟨u1, u2, h1, h2, hcfg, hq2, -, hout2⟩ := write_then_read_priority hinv hq
  have hinv2 := exec_keeps_inv (exec_keeps_inv hinv h1) h2
  obtain ⟨u3, u4, h3, h4, -, hq4, hprio4, hout4⟩ := write_then_read_priority hinv2 hq2
  have hzero : legalPrio st.cfg s 0 = prioOne st.cfg s := by simp [legalPrio_eq hwf]
  rw [hcfg, legalPrio_ones hwf] at hprio4 hout4
  rw [hzero] at hout2
  refine ⟨u1, u2, u3, u4, _, _, h1, h2, h3, h4, by simp [hout4, hout2], hq4, rfl, rfl, hprio4, fun v => ?_⟩
  simp only [variable_bits_xor (prioBits_wf hwf s).1, legalPrio_eq hwf]
  constructor
  · rintro ⟨w, rfl⟩
    exact ⟨w &&& prioVar st.cfg s, by rw [Nat.and_assoc, Nat.and_self], rfl⟩
  · rintro ⟨m, hm, rfl⟩
    exact ⟨m, by rw [hm]⟩

end Sys2Proof.Proofs
end

section
/-! PROOFS. Writes of enables and thresholds (spec/41_registers.md R132, R133), and what the register actions leave alone
(R139; spec/20_memory.md R65, spec/60_exceptions.md R205). -/

namespace Sys2Proof.Proofs

open Sys2Proof Sys2Proof.Machine

/-! Enables. -/

/-- Register `k` packs the bit of source `s` (spec/30_encoding.md R94). -/
def InPackedReg (c : Cfg) (k s : Nat) : Prop := k * c.g ≤ s ∧ s < k * c.g + c.g

theorem packedBit?_of_in {c : Cfg} {k s : Nat} (hsrc : isSource c s = true) (h : InPackedReg c k s) (w : Nat) :
    packedBit? c k w s = some (w.testBit (s - k * c.g)) :=
  if_pos ⟨hsrc, h⟩

theorem packedBit?_of_not_in {c : Cfg} {k s : Nat} (h : ¬ (isSource c s = true ∧ InPackedReg c k s)) (w : Nat) :
    packedBit? c k w s = none :=
  if_neg h

/-- A bit that the register does not hold keeps its value, whether it exists or not. -/
theorem writeIeRow_at1_of_not_in {c : Cfg} {k s : Nat} (h : ¬ (isSource c s = true ∧ InPackedReg c k s)) (t w : Nat)
    (row : List Bool) : at1 false (writeIeRow c t k w row) s = at1 false row s := by
  rw [writeIeRow_at1, packedBit?_of_not_in h]
  split
  · rfl
  · cases s with
    | zero => rfl
    | succ j =>
      have hlen : row.length ≤ j := by omega
      simp [at1, List.getElem?_eq_none hlen]

theorem writeIeRow_at1_of_in {c : Cfg} {k s : Nat} {row : List Bool} (hlen : row.length = numSources c)
    (hsrc : isSource c s = true) (h : InPackedReg c k s) (t w : Nat) :
    at1 false (writeIeRow c t k w row) s = legalIE c t s (w.testBit (s - k * c.g)) (at1 false row s) := by
  rw [writeIeRow_at1, packedBit?_of_in hsrc h, hlen, if_pos ((isSource_iff c s).1 hsrc)]

/-- The state after the action WIE of a queue's head (spec/41_registers.md R132). -/
def enablesWritten (r t k w : Nat) (st : State) : State := (effect (.wie r t k w) st).settle

/-- Beside the enable row and what follows `EIP`, the write takes its message and nothing else. -/
theorem enablesWritten_fields (r t k w : Nat) (st : State) :
    (enablesWritten r t k w st).ie = st.ie.set t (writeIeRow st.cfg t k w (st.ieRow t))
      ∧ (enablesWritten r t k w st).ip = st.ip ∧ (enablesWritten r t k w st).prio = st.prio
      ∧ (enablesWritten r t k w st).thr = st.thr ∧ SameGateways st (enablesWritten r t k w st)
      ∧ Dequeued r st (enablesWritten r t k w st) ∧ (enablesWritten r t k w st).outQ = st.outQ
      ∧ SameModel st (enablesWritten r t k w st) :=
  ⟨rfl, rfl, rfl, rfl, ⟨rfl, rfl, rfl, rfl⟩, dequeueIn_dequeued r st, rfl, ⟨rfl, rfl, rfl⟩⟩

theorem enablesWritten_historyFollows {st : State} (hshape : st.Shape) (r t k w : Nat) :
    HistoryFollows st (enablesWritten r t k w st) :=
  settle_historyFollows hshape rfl ⟨rfl, rfl, rfl⟩

theorem enablesWritten_ieRow_self {st : State} (hshape : st.Shape) (r k w : Nat) {t : Nat} (ht : t < numTargets st.cfg) :
    (enablesWritten r t k w st).ieRow t = writeIeRow st.cfg t k w (st.ieRow t) :=
  getD_set_self [] st.ie t _ (hshape.ie ▸ ht)

theorem enablesWritten_ieRow_ne (st : State) (r k w : Nat) {t t' : Nat} (hne : t' ≠ t) :
    (enablesWritten r t k w st).ieRow t' = st.ieRow t' :=
  getD_set_ne [] st.ie t t' _ hne

theorem enablesWritten_ieOf_of_in {st : State} (hshape : st.Shape) (r w : Nat) {t k s : Nat}
    (ht : t < numTargets st.cfg) (hsrc : isSource st.cfg s = true) (h : InPackedReg st.cfg k s) :
    (enablesWritten r t k w st).ieOf t s = legalIE st.cfg t s (w.testBit (s - k * st.cfg.g)) (st.ieOf t s) := by
  rw [State.ieOf, enablesWritten_ieRow_self hshape r k w ht]
  exact writeIeRow_at1_of_in (hshape.ieRows t ht) hsrc h t w

theorem enablesWritten_ieOf_of_not_in {st : State} (hshape : st.Shape) (r w : Nat) {t k s : Nat}
    (ht : t < numTargets st.cfg) (h : ¬ (isSource st.cfg s = true ∧ InPackedReg st.cfg k s)) :
    (enablesWritten r t k w st).ieOf t s = st.ieOf t s := by
  rw [State.ieOf, enablesWritten_ieRow_self hshape r k w ht]
  exact writeIeRow_at1_of_not_in h t w _

/-- A hardwired bit holds what any write to it stores. -/
theorem legalIE_hardwired {st : State} (hinv : st.Inv) {t s : Nat} (ht : t < numTargets st.cfg)
    (hsrc : isSource st.cfg s = true) (hk : ieKind st.cfg t s ≠ .rw) (b old : Bool) :
    legalIE st.cfg t s b old = st.ieOf t s := by
  obtain ⟨hge, hle⟩ := (isSource_iff _ _).1 hsrc
  obtain ⟨h0, h1⟩ := hinv.ieLegal t ht s hle hge
  cases hkind : ieKind st.cfg t s with
  | rw => exact absurd hkind hk
  | hard0 => rw [legalIE_hard0 hkind, h0 hkind]
  | hard1 => rw [legalIE_hard1 hkind, h1 hkind]

/-- Another target's row is not written, so neither its `EIP` nor its `best` is changed. -/
theorem enablesWritten_other_target (st : State) (r k w : Nat) {t t' : Nat} (hne : t' ≠ t) :
    (enablesWritten r t k w st).ieRow t' = st.ieRow t' ∧ (enablesWritten r t k w st).eip t' = st.eip t'
      ∧ (enablesWritten r t k w st).best t' = st.best t' := by
  have hrow := enablesWritten_ieRow_ne st r k w hne
  have hie : ∀ s, (enablesWritten r t k w st).ieOf t' s = st.ieOf t' s := fun s => congrArg (at1 false · s) hrow
  exact ⟨hrow, eip_congr t' rfl (fun _ => rfl) hie (fun _ => rfl) rfl,
    best_congr t' rfl (fun _ => rfl) hie (fun _ => rfl)⟩

/-- Settles O29: the head's WIE leads to `enablesWritten`; a completion afterwards is dropped where the bit is clear. -/
theorem writeEnables : Obligations.WriteEnables := by
  intro st r t k w hinv hhead
  have hexec : exec (.wie r t k w) st = .next (enablesWritten r t k w st) := exec_head hinv hhead
  obtain ⟨-, hrange⟩ := head_inRange hinv hhead
  have ht : t < numTargets st.cfg := (isTarget_iff _ _).1 ((Bool.and_eq_true _ _).mp hrange).1
  obtain ⟨-, hip, hprio, hthr, hgateways, hdequeued, houtQ, hmodel⟩ := enablesWritten_fields r t k w st
  refine ⟨_, hexec, fun s hsrc hlo hhi => ?_, fun s hout => ?_, fun t' => enablesWritten_other_target st r k w,
    eip_iff _ t, hip, hprio, hthr, hgateways, hdequeued, houtQ, enablesWritten_historyFollows hinv.shape r t k w, hmodel,
    fun r' s hclear hcomplete => ?_⟩
  · rw [enablesWritten_ieOf_of_in hinv.shape r w ht hsrc ⟨hlo, hhi⟩]
    exact ⟨fun hk => legalIE_rw hk _ _, fun hk => legalIE_hardwired hinv ht hsrc hk _ _⟩
  · exact enablesWritten_ieOf_of_not_in hinv.shape r w ht fun h => hout h.2
  · obtain ⟨v, hv, -, hdropped, -⟩ :=
      completionReleasesTheGateway _ r' t s (exec_keeps_inv hinv hexec) hcomplete
    exact ⟨v, hv, hdropped hclear⟩

/-! Thresholds. -/

/-- The state after the action WTHR of a queue's head (spec/41_registers.md R133). -/
def thresholdWritten (r t w : Nat) (st : State) : State := (effect (.wthr r t w) st).settle

theorem thresholdWritten_historyFollows {st : State} (hshape : st.Shape) (r t w : Nat) :
    HistoryFollows st (thresholdWritten r t w st) :=
  settle_historyFollows hshape rfl ⟨rfl, rfl, rfl⟩

theorem thresholdWritten_thrOf_self {st : State} (hshape : st.Shape) (r w : Nat) {t : Nat} (ht : t < numTargets st.cfg) :
    (thresholdWritten r t w st).thrOf t = legalThr st.cfg t w :=
  getD_set_self 0 st.thr t _ (hshape.thr ▸ ht)

theorem thresholdWritten_thrOf_ne (st : State) (r w : Nat) {t t' : Nat} (hne : t' ≠ t) :
    (thresholdWritten r t w st).thrOf t' = st.thrOf t' :=
  getD_set_ne 0 st.thr t t' _ hne

theorem thresholdWritten_best (st : State) (r t w t' : Nat) : (thresholdWritten r t w st).best t' = st.best t' :=
  best_of_fields rfl rfl rfl rfl t'

theorem thresholdWritten_eip_ne (st : State) (r w : Nat) {t t' : Nat} (hne : t' ≠ t) :
    (thresholdWritten r t w st).eip t' = st.eip t' :=
  eip_congr t' rfl (fun _ => rfl) (fun _ => rfl) (fun _ => rfl) (thresholdWritten_thrOf_ne st r w hne)

/-- A threshold without a variable bit already holds 0, all that a write can store. -/
theorem thresholdWritten_hardwired {st : State} (hinv : st.Inv) (r w : Nat) {t : Nat} (ht : t < numTargets st.cfg)
    (hvar : thrVar st.cfg t = 0) : (thresholdWritten r t w st).thr = st.thr := by
  have hzero : ∀ v, legalThr st.cfg t v = 0 := fun v => by simp [legalThr, hvar]
  have hheld : legalThr st.cfg t w = st.thr.getD t 0 := by rw [hzero, ← State.thrOf, hinv.thrLegal t ht, hzero]
  exact (congrArg (st.thr.set t) hheld).trans (set_getD_same 0 st.thr t)

/-- Settles O30: the head's WTHR leads to `thresholdWritten`. -/
theorem writeThreshold : Obligations.WriteThreshold := by
  intro st r t w hinv hhead
  obtain ⟨-, hrange⟩ := head_inRange hinv hhead
  have ht : t < numTargets st.cfg := (isTarget_iff _ _).1 hrange
  exact ⟨thresholdWritten r t w st, exec_head hinv hhead, thresholdWritten_thrOf_self hinv.shape r w ht,
    thresholdWritten_hardwired hinv r w ht,
    fun _ hne => ⟨thresholdWritten_thrOf_ne st r w hne, thresholdWritten_eip_ne st r w hne⟩,
    thresholdWritten_best st r t w, rfl, rfl, rfl, ⟨rfl, rfl, rfl, rfl⟩, dequeueIn_dequeued r st, rfl,
    thresholdWritten_historyFollows hinv.shape r t w, ⟨rfl, rfl, rfl⟩⟩

/-! What register actions leave alone. -/

theorem settle_notif_of_not_wire {st : State} (h : st.cfg.notifyModel ≠ .wire) : st.settle.notif = st.notif := by
  rw [State.settle_notif, if_neg h]

/-- Settles O34: none of the seven effects writes a pending bit, a gateway, a request or a notification. -/
theorem registerAccessesKeepPendingAndGateways : Obligations.RegisterAccessesKeepPendingAndGateways := by
  intro st u r a b c i _ hi h
  obtain ⟨-, rfl⟩ | ⟨-, rfl⟩ := exec_next h
  · obtain rfl | rfl | rfl | rfl | rfl | rfl | rfl := hi <;>
      exact ⟨rfl, ⟨rfl, rfl, rfl, rfl⟩, fun hwire => settle_notif_of_not_wire hwire⟩
  · exact ⟨rfl, ⟨rfl, rfl, rfl, rfl⟩, fun _ => rfl⟩

/-- Settles O44: a write for one target leaves the others' rows and thresholds, hence their `EIP` and `best`. -/
theorem targetsAreIndependent : Obligations.TargetsAreIndependent := by
  intro st u i r t k w _ hi h t' hne
  obtain ⟨-, rfl⟩ | ⟨-, rfl⟩ := exec_next h
  · have hnotif : ∀ {eff : State}, eff.cfg = st.cfg → eff.notif = st.notif →
        st.cfg.notifyModel = .wire ∨ eff.settle.notifOf t' = st.notifOf t' := by
      intro eff hcfg hsame
      refine or_iff_not_imp_left.2 fun hwire => ?_
      rw [State.notifOf, settle_notif_of_not_wire (hcfg ▸ hwire), hsame, State.notifOf]
    obtain rfl | rfl := hi
    · obtain ⟨hrow, heip, hbest⟩ := enablesWritten_other_target st r k w hne
      exact ⟨heip, hbest, hrow, rfl, hnotif rfl rfl⟩
    · exact ⟨thresholdWritten_eip_ne st r w hne, thresholdWritten_best st r t w t', rfl,
        thresholdWritten_thrOf_ne st r w hne, hnotif rfl rfl⟩
  · exact ⟨rfl, rfl, rfl, rfl, .inr rfl⟩

/-! The same write again. -/

/-- Writing a row twice is writing it once: no bit's legal value depends on the old one (spec/10_state.md R43). -/
theorem writeIeRow_idem (c : Cfg) (t k w : Nat) (row : List Bool) :
    writeIeRow c t k w (writeIeRow c t k w row) = writeIeRow c t k w row := by
  apply List.ext_getElem (by simp)
  intro j _ _
  simp only [writeIeRow, List.getElem_mapIdx]
  cases packedBit? c k w (j + 1) <;> rfl

/-- An action whose effect leaves the core state and the notifications alone ends where its effect does. -/
theorem exec_of_sameCore {i : Instr} {st u : State} (hinv : st.Inv) (h : exec i st = .next u)
    (hregs : SameRegisters st (effect i st)) (hip : (effect i st).ip = st.ip)
    (hnotif : (effect i st).notif = st.notif) : u = effect i st ∨ u = st := by
  obtain ⟨hprio, hie, hthr⟩ := hregs
  have hf := effect_frame i st
  obtain ⟨-, rfl⟩ | ⟨-, rfl⟩ := exec_next h
  · exact .inl (settle_of_core hinv hf.model.1 hip hie hprio hthr hnotif hf.seen0 hf.seen1)
  · exact .inr rfl

/-- The second of two equal writes writes what stands there: the first has stored the legal value. -/
theorem repeated_write_sameRegisters {st : State} {r r' a b c : Nat} {i j : Instr} (hinv : st.Inv)
    (hij : (i = .wprio r a b ∧ j = .wprio r' a b) ∨ (i = .wie r a b c ∧ j = .wie r' a b c)
      ∨ (i = .wthr r a b ∧ j = .wthr r' a b)) (hen : enabled st i = true) :
    SameRegisters (effect i st).settle (effect j (effect i st).settle) := by
  have hwf := wf_of_enabled hen
  obtain ⟨rfl, rfl⟩ | ⟨rfl, rfl⟩ | ⟨rfl, rfl⟩ := hij
  · obtain ⟨-, hsrc⟩ := (Bool.and_eq_true _ _).mp hwf
    have hlen : a ≤ (set1 st.prio a (legalPrio st.cfg a b)).length := by
      rw [set1_length, hinv.shape.prio]
      exact ((isSource_iff _ _).1 hsrc).2
    have hsame := set1_same 0 _ a hlen
    have hstored := prioWritten_prioOf_self hinv.shape r hsrc b
    exact ⟨(congrArg (set1 _ a) hstored.symm).trans hsame, rfl, rfl⟩
  · simp only [Instr.wf, msgInRange, Bool.and_eq_true, isTarget_iff] at hwf
    obtain ⟨-, ht, -⟩ := hwf
    have hstored := enablesWritten_ieRow_self hinv.shape r b c ht
    have hrow : writeIeRow st.cfg a b c ((enablesWritten r a b c st).ieRow a) = (enablesWritten r a b c st).ieRow a := by
      rw [hstored, writeIeRow_idem]
    exact ⟨rfl, (congrArg (List.set _ a) hrow).trans (set_getD_same [] _ a), rfl⟩
  · obtain ⟨-, ht⟩ := (Bool.and_eq_true _ _).mp hwf
    have hstored := thresholdWritten_thrOf_self hinv.shape r b ((isTarget_iff _ _).1 ht)
    exact ⟨rfl, rfl, (congrArg (List.set _ a) hstored.symm).trans (set_getD_same 0 _ a)⟩

/-- Settles O35: the second write waits, or it stores what stands there and settling finds nothing new. -/
theorem repeatedWritesAreIdempotent : Obligations.RepeatedWritesAreIdempotent := by
  intro st u v r r' a b c i j hinv hij hen hi hj
  have hu : u = (effect i st).settle := Host.Outcome.next.inj (hi.symm.trans (exec_of_enabled hen))
  have hregs : SameRegisters u (effect j u) := hu ▸ repeated_write_sameRegisters hinv hij hen
  have hframe : (effect j u).ip = u.ip ∧ SameGateways u (effect j u) ∧ (effect j u).notif = u.notif := by
    obtain ⟨-, rfl⟩ | ⟨-, rfl⟩ | ⟨-, rfl⟩ := hij <;> exact ⟨rfl, ⟨rfl, rfl, rfl, rfl⟩, rfl⟩
  obtain ⟨hip, hgateways, hnotif⟩ := hframe
  have hf := effect_frame j u
  obtain rfl | rfl := exec_of_sameCore (exec_keeps_inv hinv hi) hj hregs hip hnotif
  · exact ⟨hregs, hip, hgateways, ⟨hnotif, hf.seen0, hf.seen1⟩,
      eip_of_fields hf.model.1 hip hregs.2.1 hregs.1 hregs.2.2⟩
  · exact ⟨⟨rfl, rfl, rfl⟩, rfl, ⟨rfl, rfl, rfl, rfl⟩, ⟨rfl, rfl, rfl⟩, fun _ => rfl⟩

end Sys2Proof.Proofs
end

section
/-! PROOFS. Priorities, enables, thresholds and notifications change by their own actions only (spec/10_state.md R26, R27,
R28, R35). -/

namespace Sys2Proof.Proofs

open Sys2Proof Sys2Proof.Machine

theorem prio_written_by {i : Instr} {st u : State} (h : exec i st = .next u) {s : Nat} (hne : u.prioOf s ≠ st.prioOf s) :
    ∃ r w, i = .wprio r s w ∧ u.prioOf s = legalPrio st.cfg s w := by
  obtain ⟨-, rfl⟩ | ⟨-, rfl⟩ := exec_next h
  · obtain hsame | ⟨r, s', w, rfl⟩ := (effect_frame i st).prio
    · exact absurd (congrArg (at1 0 · s) hsame) hne
    · have hread : (effect (.wprio r s' w) st).settle.prioOf s = _ := at1_set1 0 st.prio s' s (legalPrio st.cfg s' w)
      split at hread
      case isTrue hs =>
        obtain ⟨rfl, -⟩ := hs
        exact ⟨r, w, rfl, hread⟩
      case isFalse => exact absurd hread hne
  · exact absurd rfl hne

theorem thr_written_by {i : Instr} {st u : State} (h : exec i st = .next u) {t : Nat} (hne : u.thrOf t ≠ st.thrOf t) :
    ∃ r w, i = .wthr r t w ∧ u.thrOf t = legalThr st.cfg t w := by
  obtain ⟨-, rfl⟩ | ⟨-, rfl⟩ := exec_next h
  · obtain hsame | ⟨r, t', w, rfl⟩ := (effect_frame i st).thr
    · exact absurd (congrArg (·.getD t 0) hsame) hne
    · have hread : (effect (.wthr r t' w) st).settle.thrOf t = _ := getD_set 0 st.thr t' t (legalThr st.cfg t' w)
      split at hread
      case isTrue ht =>
        obtain ⟨rfl, -⟩ := ht
        exact ⟨r, w, rfl, hread⟩
      case isFalse => exact absurd hread hne
  · exact absurd rfl hne

theorem notif_written_by {i : Instr} {st u : State} (hwire : st.cfg.notifyModel ≠ .wire) (h : exec i st = .next u)
    {t : Nat} (hne : u.notifOf t ≠ st.notifOf t) : i = .notify t (u.notifOf t) := by
  obtain ⟨-, rfl⟩ | ⟨-, rfl⟩ := exec_next h
  · have hf := effect_frame i st
    have hsettled : (effect i st).settle.notif = (effect i st).notif := settle_notif_of_not_wire (hf.model.1 ▸ hwire)
    obtain hsame | ⟨t', v, rfl⟩ := hf.notif
    · exact absurd (congrArg (·.getD t false) (hsettled.trans hsame)) hne
    · have hread : (effect (.notify t' v) st).settle.notifOf t = _ :=
        (congrArg (·.getD t false) hsettled).trans (getD_set false st.notif t' t v)
      split at hread
      case isTrue ht => rw [hread, ht.1]
      case isFalse => exact absurd hread hne
  · exact absurd rfl hne

/-- An enable bit that changes is read-write, and takes its bit of the value written (spec/41_registers.md R132). -/
theorem ie_written_by {i : Instr} {st u : State} (hinv : st.Inv) (h : exec i st = .next u) {t s : Nat}
    (hne : u.ieOf t s ≠ st.ieOf t s) : ieKind st.cfg t s = .rw ∧ ∃ r k w, i = .wie r t k w
      ∧ k * st.cfg.g ≤ s ∧ s < k * st.cfg.g + st.cfg.g ∧ u.ieOf t s = w.testBit (s - k * st.cfg.g) := by
  obtain ⟨hen, rfl⟩ | ⟨-, rfl⟩ := exec_next h
  · obtain hsame | ⟨r, t', k, w, rfl⟩ := (effect_frame i st).ie
    · exact absurd (congrArg (fun l : List (List Bool) => at1 false (l.getD t []) s) hsame) hne
    · have hwf := wf_of_enabled hen
      simp only [Instr.wf, msgInRange, Bool.and_eq_true, isTarget_iff] at hwf
      obtain ⟨-, ht, -⟩ := hwf
      change (enablesWritten r t' k w st).ieOf t s ≠ st.ieOf t s at hne
      obtain rfl : t = t' := by
        by_contra htt
        exact hne (congrArg (at1 false · s) (enablesWritten_ieRow_ne st r k w htt))
      obtain ⟨hsrc, hin⟩ : isSource st.cfg s = true ∧ InPackedReg st.cfg k s := by
        by_contra hout
        exact hne (enablesWritten_ieOf_of_not_in hinv.shape r w ht hout)
      have hread := enablesWritten_ieOf_of_in hinv.shape r w ht hsrc hin
      have hrw : ieKind st.cfg t s = .rw := by
        by_contra hk
        exact hne (hread.trans (legalIE_hardwired hinv ht hsrc hk _ _))
      exact ⟨hrw, r, k, w, rfl, hin.1, hin.2, hread.trans (legalIE_rw hrw _ _)⟩
  · exact absurd rfl hne

/-- Settles O33: what an action changes is what it writes, and what it leaves well-formed is legal. -/
theorem onlyWritesChangePrioritiesAndEnables : Obligations.OnlyWritesChangePrioritiesAndEnables := by
  intro st u i hinv h
  have hinv' := exec_keeps_inv hinv h
  obtain ⟨hcfg, -⟩ := exec_sameModel h
  refine ⟨fun s => prio_written_by h, fun t s => ie_written_by hinv h, fun t => thr_written_by h,
    fun hwire t => notif_written_by hwire h, fun s hs => ?_, fun t s ht hs => ?_, fun t ht => ?_⟩
  · rw [isSource_iff, ← hcfg] at hs
    exact ⟨_, hcfg ▸ hinv'.prioLegal s hs.2 hs.1⟩
  · rw [isTarget_iff, ← hcfg] at ht
    rw [isSource_iff, ← hcfg] at hs
    exact hcfg ▸ hinv'.ieLegal t ht s hs.2 hs.1
  · rw [isTarget_iff, ← hcfg] at ht
    exact ⟨_, hcfg ▸ hinv'.thrLegal t ht⟩

end Sys2Proof.Proofs
end

section
/-! PROOFS. Accepting and claiming (spec/42_claim_completion.md R150, R152, R157, R159, spec/43_notification.md R174). -/

namespace Sys2Proof.Proofs

open Sys2Proof Sys2Proof.Machine

/-! ACCEPT. -/

/-- The state after an ACCEPT that fires (spec/42_claim_completion.md R150). -/
def requestAccepted (s : Nat) (st : State) : State := (accepted s st).settle

theorem enabled_accept (st : State) (s : Nat) :
    enabled st (.accept s) = true ↔ isSource st.cfg s = true ∧ 0 < st.reqQOf s ∧ st.ipOf s = false := by
  simp only [enabled, Instr.wf, canAccept, Bool.and_eq_true, decide_eq_true_eq, Bool.not_eq_true', gt_iff_lt]

theorem exec_accept {st : State} {s : Nat} (h : enabled st (.accept s) = true) :
    exec (.accept s) st = .next (requestAccepted s st) :=
  exec_of_enabled h

theorem requestAccepted_fields (s : Nat) (st : State) :
    (requestAccepted s st).reqQ = set1 st.reqQ s (st.reqQOf s - 1) ∧ (requestAccepted s st).ip = set1 st.ip s true
      ∧ (requestAccepted s st).cnt = (if isEdgeCount st.cfg s then set1 st.cnt s (st.cntOf s - 1) else st.cnt)
      ∧ (requestAccepted s st).busy = st.busy ∧ (requestAccepted s st).line = st.line
      ∧ SameRegisters st (requestAccepted s st) ∧ SameQueues st (requestAccepted s st)
      ∧ SameModel st (requestAccepted s st) := by
  obtain ⟨hreqQ, hip, hcnt, hbusy, hline, hregs, hqueues, -, hmodel⟩ := accepted_fields s st
  exact ⟨hreqQ, hip, hcnt, hbusy, hline, hregs, hqueues, hmodel⟩

theorem requestAccepted_historyFollows {st : State} (hshape : st.Shape) (s : Nat) :
    HistoryFollows st (requestAccepted s st) := by
  obtain ⟨-, -, -, -, -, -, -, hnotif, hcfg, -⟩ := accepted_fields s st
  exact settle_historyFollows hshape hcfg hnotif

section Accept

variable {st : State} {s : Nat}

theorem requestAccepted_ipOf (hshape : st.Shape) (hsrc : isSource st.cfg s = true) (s' : Nat) :
    (requestAccepted s st).ipOf s' = (decide (s' = s) || st.ipOf s') := by
  obtain ⟨hge, hle⟩ := (isSource_iff _ _).1 hsrc
  obtain ⟨-, hip, -⟩ := requestAccepted_fields s st
  rw [State.ipOf, hip, at1_set1]
  by_cases hs : s' = s
  · simp [hs, hge, hshape.ip, hle]
  · simp [hs, State.ipOf]

theorem requestAccepted_ieOf (t s' : Nat) : (requestAccepted s st).ieOf t s' = st.ieOf t s' := by
  obtain ⟨-, -, -, -, -, ⟨-, hie, -⟩, -⟩ := requestAccepted_fields s st
  rw [State.ieOf, State.ieRow, hie, State.ieOf, State.ieRow]

theorem requestAccepted_prioOf (s' : Nat) : (requestAccepted s st).prioOf s' = st.prioOf s' := by
  obtain ⟨-, -, -, -, -, ⟨hprio, -⟩, -⟩ := requestAccepted_fields s st
  rw [State.prioOf, hprio, State.prioOf]

theorem requestAccepted_thrOf (t : Nat) : (requestAccepted s st).thrOf t = st.thrOf t := by
  obtain ⟨-, -, -, -, -, ⟨-, -, hthr⟩, -⟩ := requestAccepted_fields s st
  rw [State.thrOf, hthr, State.thrOf]

theorem requestAccepted_reqQOf_self (hshape : st.Shape) (hsrc : isSource st.cfg s = true) :
    (requestAccepted s st).reqQOf s = st.reqQOf s - 1 := by
  obtain ⟨hge, hle⟩ := (isSource_iff _ _).1 hsrc
  obtain ⟨hreqQ, -⟩ := requestAccepted_fields s st
  rw [State.reqQOf, hreqQ, at1_set1_self _ _ _ _ hge (hshape.reqQ ▸ hle)]

theorem requestAccepted_reqQOf_ne {s' : Nat} (hne : s' ≠ s) : (requestAccepted s st).reqQOf s' = st.reqQOf s' := by
  obtain ⟨hreqQ, -⟩ := requestAccepted_fields s st
  rw [State.reqQOf, hreqQ, at1_set1_ne _ _ _ _ _ hne, State.reqQOf]

theorem requestAccepted_cntOf_self (hshape : st.Shape) (hcount : isEdgeCount st.cfg s = true) :
    (requestAccepted s st).cntOf s = st.cntOf s - 1 := by
  obtain ⟨hge, hle⟩ := (isSource_iff _ _).1 (isSource_of_kind _ _ (.inr (.inr hcount)))
  obtain ⟨-, -, hcnt, -⟩ := requestAccepted_fields s st
  rw [State.cntOf, hcnt, if_pos hcount, at1_set1_self _ _ _ _ hge (hshape.cnt ▸ hle)]

theorem requestAccepted_cntOf_ne {s' : Nat} (hne : s' ≠ s) : (requestAccepted s st).cntOf s' = st.cntOf s' := by
  obtain ⟨-, -, hcnt, -⟩ := requestAccepted_fields s st
  rw [State.cntOf, hcnt]
  split
  · exact at1_set1_ne _ _ _ _ _ hne
  · rfl

/-- After accepting, `EIP` is what it was, or the accepted source raises it (spec/43_notification.md R174). -/
theorem requestAccepted_eip_iff (hshape : st.Shape) (hsrc : isSource st.cfg s = true) (t : Nat) :
    (requestAccepted s st).eip t = true ↔ st.eip t = true ∨ (st.ieOf t s = true ∧ st.prioOf s > st.thrOf t) := by
  obtain ⟨-, -, -, -, -, -, -, hcfg, -⟩ := requestAccepted_fields s st
  simp only [eip_iff, hcfg, requestAccepted_ipOf hshape hsrc, requestAccepted_ieOf, requestAccepted_prioOf,
    requestAccepted_thrOf, Bool.or_eq_true, decide_eq_true_eq]
  constructor
  · rintro ⟨s', hs', rfl | hip, hie, habove⟩
    · exact .inr ⟨hie, habove⟩
    · exact .inl ⟨s', hs', hip, hie, habove⟩
  · rintro (⟨s', hs', hip, hie, habove⟩ | ⟨hie, habove⟩)
    · exact ⟨s', hs', .inr hip, hie, habove⟩
    · exact ⟨s, hsrc, .inl rfl, hie, habove⟩

end Accept

/-- Settles O36: an enabled ACCEPT leads to `requestAccepted`; the counter is at least 1 because it is at least `reqQ`. -/
theorem acceptLatchesTheRequest : Obligations.AcceptLatchesTheRequest := by
  intro st s hinv hsrc
  obtain ⟨hge, hle⟩ := (isSource_iff _ _).1 hsrc
  refine ⟨fun hreq hip => ?_, fun hip => exec_of_disabled hsrc ?_⟩
  · have hen := (enabled_accept st s).2 ⟨hsrc, hreq, hip⟩
    obtain ⟨-, -, hcnt, hbusy, hline, hregs, hqueues, hmodel⟩ := requestAccepted_fields s st
    refine ⟨_, exec_accept hen, by simp [requestAccepted_ipOf hinv.shape hsrc],
      requestAccepted_reqQOf_self hinv.shape hsrc,
      fun hcount => ⟨hreq.trans_le (hinv.reqCounted s hle hcount), requestAccepted_cntOf_self hinv.shape hcount⟩,
      fun hcount => hcnt.trans (if_neg (by simp [hcount])), fun s' hne => ⟨?_, requestAccepted_reqQOf_ne hne,
        requestAccepted_cntOf_ne hne⟩, hbusy, hline, hregs, hqueues, requestAccepted_historyFollows hinv.shape s, hmodel,
      fun t hie habove => (requestAccepted_eip_iff hinv.shape hsrc t).2 (.inr ⟨hie, habove⟩)⟩
    simp [requestAccepted_ipOf hinv.shape hsrc, hne]
  · simp [Bool.eq_false_iff, enabled_accept, hip]

/-! CLAIM. -/

/-- The state after a CLAIM that fires (spec/42_claim_completion.md R152). -/
def claimTaken (r t : Nat) (st : State) : State := (claimed r t (st.dequeueIn r)).settle

theorem dequeueIn_best (st : State) (r t : Nat) : (st.dequeueIn r).best t = st.best t :=
  best_of_fields rfl rfl rfl rfl t

theorem claimTaken_fields (r t : Nat) (st : State) :
    (claimTaken r t st).ip = (if st.best t = 0 then st.ip else set1 st.ip (st.best t) false)
      ∧ (claimTaken r t st).outQ = st.outQ.set r (st.outQOf r ++ [.cresp (st.best t)])
      ∧ (claimTaken r t st).inQ = (st.dequeueIn r).inQ ∧ (claimTaken r t st).rcvd = st.rcvd
      ∧ SameRegisters st (claimTaken r t st) ∧ SameGateways st (claimTaken r t st) ∧ SameModel st (claimTaken r t st) := by
  obtain ⟨hip, houtQ, hinQ, hrcvd, hregs, hgateways, -, hmodel⟩ := claimed_fields r t (st.dequeueIn r)
  rw [dequeueIn_best] at hip houtQ
  exact ⟨hip, houtQ, hinQ, hrcvd, hregs, hgateways, hmodel⟩

/-- A claim clears the pending bit of the source it returns, and no other. -/
theorem claimTaken_ipOf {st : State} (hshape : st.Shape) (r t s : Nat) :
    (claimTaken r t st).ipOf s = (st.ipOf s && decide (s ≠ st.best t)) := by
  obtain ⟨hip, -⟩ := claimTaken_fields r t st
  rw [State.ipOf, hip]
  split
  case isTrue hzero =>
    cases s with
    | zero => rfl
    | succ k => simp [hzero, State.ipOf]
  case isFalse hne =>
    obtain ⟨hge, -⟩ := (isSource_iff _ _).1 (best_elig hne).1
    rw [at1_set1]
    by_cases hs : s = st.best t
    · simp [hs, hge, hshape.ip, best_le]
    · simp [hs, State.ipOf]

/-- After a claim, `EIP` is 1 exactly where a source other than the claimed one is above the threshold. -/
theorem claimTaken_eip_iff {st : State} (hshape : st.Shape) (r t t' : Nat) :
    (claimTaken r t st).eip t' = true ↔
      ∃ s, isSource st.cfg s = true ∧ s ≠ st.best t ∧ st.active t' s = true ∧ st.prioOf s > st.thrOf t' := by
  obtain ⟨-, -, -, -, ⟨hprio, hie, hthr⟩, -, hcfg, -⟩ := claimTaken_fields r t st
  rw [eip_iff, hcfg]
  refine exists_congr fun s => ?_
  simp only [claimTaken_ipOf hshape, State.active, State.ieOf, State.ieRow, State.prioOf, State.thrOf, hie, hprio, hthr,
    Bool.and_eq_true, decide_eq_true_eq]
  tauto

theorem exec_claim {st : State} {r t : Nat} (h : enabled st (.claim r t) = true) :
    exec (.claim r t) st = .next (claimTaken r t st) :=
  exec_of_enabled h

/-- Settles O37: the head's CLAIM leads to `claimTaken`. -/
theorem claimReturnsAndClearsTheBest : Obligations.ClaimReturnsAndClearsTheBest := by
  intro st r t hinv hhead
  obtain ⟨hip, houtQ, hinQ, hrcvd, hregs, hgateways, hmodel⟩ := claimTaken_fields r t st
  obtain ⟨hanswer, hothers⟩ := enqueueOut_answered (outQ_length_of_head hinv hhead) (.cresp (st.best t))
  obtain ⟨htaken, hwaiting, -⟩ := dequeueIn_dequeued r st
  obtain ⟨-, -, -, -, -, -, hnotif, hcfg, -⟩ := claimed_fields r t (st.dequeueIn r)
  refine ⟨claimTaken r t st, exec_claim (enabled_of_head hinv hhead), ⟨?_, fun r' hne => ?_⟩,
    ⟨?_, fun r' hne => ?_, hrcvd⟩, claimTaken_ipOf hinv.shape r t, fun hzero => hip.trans (if_pos hzero), hregs, hgateways,
    settle_historyFollows hinv.shape hcfg hnotif, hmodel⟩
  · exact (congrArg (·.getD r []) houtQ).trans hanswer
  · exact (congrArg (·.getD r' []) houtQ).trans (hothers r' hne)
  · exact (congrArg (·.getD r []) hinQ).trans htaken
  · exact (congrArg (·.getD r' []) hinQ).trans (hwaiting r' hne)

theorem next_of_enabled_claim {st u : State} {r t : Nat} (hen : enabled st (.claim r t) = true)
    (h : exec (.claim r t) st = .next u) : u = claimTaken r t st :=
  Host.Outcome.next.inj (h.symm.trans (exec_claim hen))

/-- Settles O38. -/
theorem eipAfterAClaim : Obligations.EipAfterAClaim := by
  intro st u r t hinv hen h t'
  rw [next_of_enabled_claim hen h]
  exact claimTaken_eip_iff hinv.shape r t t'

/-- The thresholds are no part of `best`, so a claim does the same in a state that differs in them alone. -/
theorem best_with_thr (st : State) (thr' : List Nat) (t : Nat) : State.best { st with thr := thr' } t = st.best t :=
  best_of_fields rfl rfl rfl rfl t

/-- Settles O16: the head's CLAIM completes in both states, and each field it leaves reads `best` and not the thresholds. -/
theorem claimsIgnoreThresholds : Obligations.ClaimsIgnoreThresholds := by
  intro st r t thr' hinv hhead
  have hen : enabled st (.claim r t) = true := enabled_of_head hinv hhead
  have hen' : enabled { st with thr := thr' } (.claim r t) = true := hen
  obtain ⟨hip, houtQ, hinQ, -, ⟨hprio, hie, hthr⟩, ⟨hbusy, -⟩, hcfg, -⟩ := claimTaken_fields r t st
  obtain ⟨hip', houtQ', hinQ', -, ⟨hprio', hie', hthr'⟩, ⟨hbusy', -⟩, hcfg', -⟩ :=
    claimTaken_fields r t { st with thr := thr' }
  rw [best_with_thr] at hip' houtQ'
  exact ⟨_, _, exec_claim hen, exec_claim hen', hip'.trans hip.symm, houtQ'.trans houtQ.symm, hinQ'.trans hinQ.symm,
    hbusy'.trans hbusy.symm, hthr', hthr, best_of_fields (hcfg'.trans hcfg.symm) (hip'.trans hip.symm)
      (hie'.trans hie.symm) (hprio'.trans hprio.symm)⟩

/-- Settles O43: accepting raises exactly the targets whose threshold it exceeds; the claim clears the one pending bit. -/
theorem acceptedInterruptsAreMulticast : Obligations.AcceptedInterruptsAreMulticast := by
  intro st s hinv hen
  have hsrc := ((enabled_accept st s).1 hen).1
  have heip := requestAccepted_eip_iff hinv.shape hsrc
  have hexec := exec_accept hen
  refine ⟨_, hexec, fun t hie habove => (heip t).2 (.inr ⟨hie, habove⟩), fun t hnot => ?_, ?_⟩
  · rw [Bool.eq_iff_iff, heip, or_iff_left hnot]
  · intro r t v henc hbest hclaim t' hbest'
    have hne : v.best t' ≠ 0 := hbest' ▸ Nat.ne_zero_of_lt ((isSource_iff _ _).1 hsrc).1
    obtain ⟨hip, -⟩ := (elig_iff _ _ _).1 (best_elig hne).2
    rw [hbest', next_of_enabled_claim henc hclaim, claimTaken_ipOf (exec_keeps_inv hinv hexec).shape, hbest] at hip
    simp at hip

/-! RESP. -/

/-- Settles O40: the delivery, whose effect `settle` does not read. -/
theorem responsesAreDeliveredInOrder : Obligations.ResponsesAreDeliveredInOrder := by
  intro st r m q hinv hq
  have hr : r < st.cfg.reqs := by
    by_contra hge
    have hlen : st.outQ.length ≤ r := hinv.shape.outQ ▸ Nat.le_of_not_lt hge
    rw [State.outQOf, List.getD_eq_default _ _ hlen] at hq
    cases hq
  have hen : enabled st (.resp r) = true := by
    simp [enabled, Instr.wf, canRespond, hq, (isReq_iff st.cfg r).2 hr]
  have hsettled : (st.deliver r).settle = st.deliver r := settle_of_core hinv rfl rfl rfl rfl rfl rfl rfl rfl
  have houtQ : ∀ r', (st.deliver r).outQOf r' = _ := fun r' => getD_set [] st.outQ r r' (st.outQOf r).tail
  have hrcvd : ∀ r', (st.deliver r).rcvdOf r' = _ :=
    fun r' => getD_set [] st.rcvd r r' (st.rcvdOf r ++ (st.outQOf r).head?.toList)
  refine ⟨st.deliver r, (exec_of_enabled hen).trans (congrArg _ hsettled), ?_, ?_, fun r' hne => ⟨?_, ?_⟩, rfl, rfl,
    ⟨rfl, rfl, rfl⟩, ⟨rfl, rfl, rfl, rfl⟩, ⟨rfl, rfl, rfl⟩, ⟨rfl, rfl, rfl⟩⟩
  · rw [houtQ, if_pos ⟨rfl, hinv.shape.outQ ▸ hr⟩, hq]
    rfl
  · rw [hrcvd, if_pos ⟨rfl, hinv.shape.rcvd ▸ hr⟩, hq]
    rfl
  · exact (houtQ r').trans (if_neg fun h => hne h.1)
  · exact (hrcvd r').trans (if_neg fun h => hne h.1)

end Sys2Proof.Proofs
end

section
/-! PROOFS. What fires at a step, and queues (spec/20_memory.md R72, R77; spec/42_claim_completion.md R152). -/

namespace Sys2Proof.Proofs

open Sys2Proof Sys2Proof.Machine

theorem firing?_of_enabled {word : List Byte} {i : Instr} (hword : decodeWord word = .ok i) {st : State}
    (hen : enabled st i = true) : firing? st (.action word) = some i := by
  simp only [firing?, hword, hen, if_true]

theorem firing?_of_disabled {word : List Byte} {i : Instr} (hword : decodeWord word = .ok i) {st : State}
    (hen : enabled st i = false) : firing? st (.action word) = none := by
  simp only [firing?, hword, hen, Bool.false_eq_true, if_false]

/-- An event takes effect through the action that it makes fire; otherwise it queues a message or does nothing. -/
theorem runEvent_fires {e : Event} {st u : State} (h : runEvent e st = .next u) :
    (∃ i, firing? st e = some i ∧ enabled st i = true ∧ u = (effect i st).settle)
      ∨ (firing? st e = none
        ∧ (u = st ∨ ∃ r m, r < st.cfg.reqs ∧ msgInRange st.cfg m = true ∧ u = st.enqueueIn r m)) := by
  obtain ⟨word, i, rfl, hword, hi⟩ | ⟨r, m, hr, hm, hnone, hu⟩ | ⟨hnone, hu⟩ := runEvent_next h
  · obtain ⟨hen, hu⟩ | ⟨hen, hu⟩ := exec_next hi
    · exact .inl ⟨i, firing?_of_enabled hword hen, hen, hu⟩
    · exact .inr ⟨firing?_of_disabled hword hen, .inl hu⟩
  · exact .inr ⟨hnone, .inr ⟨r, m, hr, hm, hu⟩⟩
  · exact .inr ⟨hnone, .inl hu⟩

/-! No request is claimed twice. -/

theorem best_ne_of_not_pending {st : State} {id : Nat} (hid : id ≠ 0) (hclear : st.ipOf id = false) (t : Nat) :
    st.best t ≠ id := by
  rintro rfl
  simp [((elig_iff _ _ _).1 (best_elig hid).2).1] at hclear

/-- A source that is not pending becomes so only through a step that fires its ACCEPT (spec/10_state.md R25). -/
theorem step_keeps_not_pending {st u : State} (hinv : st.Inv) {id : Nat} (hclear : st.ipOf id = false)
    (h : step st = .next u) (hfire : firing? st st.nextEvent ≠ some (.accept id)) : u.ipOf id = false := by
  obtain ⟨agenda, tick, hrun | rfl⟩ := step_next h
  · obtain ⟨i, hi, hen, rfl⟩ | ⟨-, rfl | ⟨r, m, -, -, rfl⟩⟩ := runEvent_fires hrun
    · by_contra hset
      obtain ⟨rfl, -⟩ := pending_set_by_accept (rescheduled_inv hinv agenda tick) (exec_of_enabled hen) hclear
        (Bool.not_eq_false _ ▸ hset)
      exact hfire hi
    · exact hclear
    · exact hclear
  · exact hclear

/-- Settles O42. -/
theorem noRequestIsClaimedTwice : Obligations.NoRequestIsClaimedTwice := by
  intro st hinv
  refine ⟨fun r t u hen h => ?_, fun id u => step_keeps_not_pending hinv, fun id t => (best_ne_of_not_pending · · t)⟩
  have hclear : u.ipOf (st.best t) = false := by
    rw [next_of_enabled_claim hen h, claimTaken_ipOf hinv.shape]
    simp
  exact ⟨hclear, fun hne => best_ne_of_not_pending hne hclear⟩

/-! Heads of queues. -/

/-- What an enabled action does to one queue: it takes its own message, and leaves every other queue. -/
theorem effect_inQOf {i : Instr} {st : State} (r : Nat) :
    ((effect i st).settle.inQOf r = st.inQOf r ∧ ∀ m, i ≠ processing r m)
      ∨ ∃ m, i = processing r m ∧ (effect i st).settle.inQOf r = (st.inQOf r).tail := by
  by_cases hi : ∃ m, i = processing r m
  · obtain ⟨m, rfl⟩ := hi
    refine .inr ⟨m, rfl, ?_⟩
    rw [State.inQOf, State.settle_inQ, effect_processing_inQ]
    exact (dequeueIn_inQOf st r r).trans (if_pos rfl)
  · refine .inl ⟨?_, fun m hm => hi ⟨m, hm⟩⟩
    obtain hsame | ⟨r', m, rfl⟩ := (effect_frame i st).inQ
    · rw [State.inQOf, State.settle_inQ, hsame, State.inQOf]
    · have hne : r ≠ r' := fun hr => hi ⟨m, by rw [hr]⟩
      rw [State.inQOf, State.settle_inQ, effect_processing_inQ]
      exact (dequeueIn_inQOf st r' r).trans (if_neg hne)

theorem processing_requester_inj {r r' : Nat} {m m' : Msg} (h : processing r m = processing r' m') : r = r' := by
  cases m <;> cases m' <;> cases h <;> rfl

/-- Settles O52: the head's action is enabled, and any other message of the requester is not its queue's head. -/
theorem headOfQueueIsProcessed : Obligations.HeadOfQueueIsProcessed := by
  intro st r m q hinv hq
  have hhead : (st.inQOf r).head? = some m := by rw [hq]; rfl
  refine ⟨⟨_, exec_head hinv hhead, ?_, fun r' hne => ?_⟩, fun m' hne => ?_⟩
  · obtain ⟨-, hnot⟩ | ⟨-, -, htaken⟩ := effect_inQOf (i := processing r m) (st := st) r
    · exact absurd rfl (hnot m)
    · rw [htaken, hq, List.tail_cons]
  · obtain ⟨hsame, -⟩ | ⟨m', hm', -⟩ := effect_inQOf (i := processing r m) (st := st) r'
    · exact hsame
    · exact absurd (processing_requester_inj hm').symm hne
  · by_contra hen
    have hhead' := head_of_enabled (Bool.not_eq_false _ ▸ hen)
    exact hne (Option.some.inj (hhead'.symm.trans hhead))

end Sys2Proof.Proofs
end

section
/-! PROOFS. Notifications (spec/43_notification.md R171, R172, R175; D9, log 30) and quiescent states (spec/20_memory.md
R79; logs 6, 17). -/

namespace Sys2Proof.Proofs

open Sys2Proof Sys2Proof.Machine

/-! NOTIFY. -/

theorem enabled_notify (st : State) (t : Nat) (v : Bool) :
    enabled st (.notify t v) = true
      ↔ isTarget st.cfg t = true ∧ st.cfg.notifyModel ≠ .wire ∧ canNotify st t v = true := by
  simp only [enabled, Instr.wf, Bool.and_eq_true, decide_eq_true_eq, and_assoc]

theorem canNotify_sample {st : State} (h : st.cfg.notifyModel = .sample) (t : Nat) (v : Bool) :
    canNotify st t v = true ↔ v = st.eip t := by
  simp only [canNotify, h, decide_eq_true_eq]

theorem canNotify_anyPast {st : State} (h : st.cfg.notifyModel = .anyPast) (t : Nat) (v : Bool) :
    canNotify st t v = if v then st.seen1Of t else st.seen0Of t := by
  simp only [canNotify, h]

/-- The present value is a value that `EIP` has had. -/
theorem seen_eip {st : State} (hinv : st.Inv) {t : Nat} (ht : t < numTargets st.cfg) :
    (if st.eip t then st.seen1Of t else st.seen0Of t) = true := by
  split
  · exact hinv.seen1 t ht ‹_›
  · exact hinv.seen0 t ht (Bool.eq_false_iff.2 ‹_›)

/-- But under `wire`, the notification of the present `EIP` can always fire (spec/43_notification.md R171). -/
theorem notify_eip_enabled {st : State} (hinv : st.Inv) {t : Nat} (ht : isTarget st.cfg t = true)
    (hwire : st.cfg.notifyModel ≠ .wire) : enabled st (.notify t (st.eip t)) = true := by
  refine (enabled_notify st t _).2 ⟨ht, hwire, ?_⟩
  cases hmodel : st.cfg.notifyModel with
  | wire => exact absurd hmodel hwire
  | sample => exact (canNotify_sample hmodel t _).2 rfl
  | anyPast => rw [canNotify_anyPast hmodel, seen_eip hinv ((isTarget_iff _ _).1 ht)]

/-- A notification touches no `EIP`, so outside `wire` there is nothing to settle. -/
theorem settle_setNotif {st : State} (hinv : st.Inv) (hwire : st.cfg.notifyModel ≠ .wire) (t : Nat) (v : Bool) :
    (st.setNotif t v).settle = st.setNotif t v :=
  settle_eq_self (fun t' ht => hinv.seen1 t' (hinv.shape.seen1 ▸ ht)) (fun t' ht => hinv.seen0 t' (hinv.shape.seen0 ▸ ht))
    fun h => absurd h hwire

theorem exec_notify {st : State} (hinv : st.Inv) {t : Nat} {v : Bool} (hen : enabled st (.notify t v) = true) :
    exec (.notify t v) st = .next (st.setNotif t v) :=
  (exec_of_enabled hen).trans (congrArg _ (settle_setNotif hinv ((enabled_notify st t v).1 hen).2.1 t v))

theorem setNotif_notifOf_self {st : State} (hshape : st.Shape) {t : Nat} (ht : isTarget st.cfg t = true) (v : Bool) :
    (st.setNotif t v).notifOf t = v :=
  getD_set_self false st.notif t v (hshape.notif ▸ (isTarget_iff _ _).1 ht)

theorem setNotif_notifOf_ne (st : State) {t t' : Nat} (hne : t' ≠ t) (v : Bool) :
    (st.setNotif t v).notifOf t' = st.notifOf t' :=
  getD_set_ne false st.notif t t' v hne

/-- Settles O45: the guard holds under both models that have the action, and its effect is one write. -/
theorem notifyShowsAPastValue : Obligations.NotifyShowsAPastValue := by
  intro st t v hinv ht
  refine ⟨fun hguard => ?_, fun hwire => ⟨exec_of_missing ?_, hinv.wire hwire t ((isTarget_iff _ _).1 ht)⟩⟩
  · have hen : enabled st (.notify t v) = true := by
      rw [enabled_notify]
      obtain ⟨hmodel, hv⟩ | ⟨hmodel, ⟨rfl, hseen⟩ | ⟨rfl, hseen⟩⟩ := hguard
      · exact ⟨ht, by simp [hmodel], (canNotify_sample hmodel t v).2 hv⟩
      · exact ⟨ht, by simp [hmodel], by simpa [canNotify_anyPast hmodel] using hseen⟩
      · exact ⟨ht, by simp [hmodel], by simpa [canNotify_anyPast hmodel] using hseen⟩
    exact ⟨st.setNotif t v, exec_notify hinv hen, setNotif_notifOf_self hinv.shape ht v,
      fun t' hne => setNotif_notifOf_ne st hne v, rfl, rfl, rfl, ⟨rfl, rfl, rfl⟩, ⟨rfl, rfl, rfl, rfl⟩, ⟨rfl, rfl, rfl⟩,
      ⟨rfl, rfl, rfl⟩, fun _ => rfl⟩
  · simp [Instr.wf, hwire]

/-- Settles O47: a difference shows that the model is not `wire`, so the mending notification can fire. -/
theorem notificationCanCatchUp : Obligations.NotificationCanCatchUp := by
  intro st t hinv ht hne
  have hwire : st.cfg.notifyModel ≠ .wire := fun h => hne (hinv.wire h t ((isTarget_iff _ _).1 ht))
  have hen := notify_eip_enabled hinv ht hwire
  exact ⟨hen, _, exec_notify hinv hen, setNotif_notifOf_self hinv.shape ht _, rfl⟩

/-! The notification model. -/

/-- The same state under another notification model. -/
def withModel (n : NotifyModel) (st : State) : State := { st with cfg := { st.cfg with notifyModel := n } }

/-- The check of a state names the notification model in one clause, which speaks of `wire` alone. -/
theorem withModel_legal {n : NotifyModel} (hn : n ≠ .wire) {st : State} (h : st.legal = true) :
    (withModel n st).legal = true := by
  simp only [State.legal, Bool.and_eq_true, decide_eq_true_eq] at h ⊢
  obtain ⟨⟨⟨hbefore, -⟩, hin⟩, hout⟩ := h
  exact ⟨⟨⟨hbefore, fun hwire => absurd hwire hn⟩, hin⟩, hout⟩

theorem withModel_inv {n : NotifyModel} (hn : n ≠ .wire) {st : State} (hinv : st.Inv) : (withModel n st).Inv := by
  obtain ⟨hwf, hlegal⟩ := (inv_iff_legal st).1 hinv
  refine (inv_iff_legal _).2 ⟨?_, withModel_legal hn hlegal⟩
  simp only [Cfg.wf, Bool.and_eq_true] at hwf ⊢
  obtain ⟨hrest, hinit⟩ := hwf
  refine ⟨hrest, ?_⟩
  rw [Option.all_eq_true] at hinit ⊢
  exact fun x hx => withModel_legal (st := State.ofInit st.cfg x) hn (hinit x hx)

/-- Settles O46: under `anyPast` the present value may be shown because it is a past one too. -/
theorem sampleIsWithinAnyPast : Obligations.SampleIsWithinAnyPast := by
  rintro st u t v hinv hsample rfl hen
  have hinv' : (withModel .anyPast st).Inv := withModel_inv (by simp) hinv
  obtain ⟨ht, -, hguard⟩ := (enabled_notify st t v).1 hen
  obtain rfl := (canNotify_sample hsample t v).1 hguard
  exact ⟨hinv', notify_eip_enabled hinv' ht (by simp [withModel])⟩

/-- Settles O50: of all targets that the bit is read from, only `t` is that context. -/
theorem notificationIsTheExternalPendingBit : Obligations.NotificationIsTheExternalPendingBit := by
  intro st t h x ht hunique
  rw [Bool.eq_iff_iff]
  simp only [State.externalPending, List.any_eq_true, List.mem_range, Bool.and_eq_true, decide_eq_true_eq, hunique]
  constructor
  · rintro ⟨t', -, rfl, hnotif⟩
    exact hnotif
  · exact fun hnotif => ⟨t, (isTarget_iff _ _).1 ht, rfl, hnotif⟩

/-! Quiescent states. -/

/-- In a quiescent state no message is waiting, so no message action is enabled. -/
theorem processing_disabled_of_quiescent {st : State} (hq : st.Quiescent) (r : Nat) (m : Msg) :
    enabled st (processing r m) = false := by
  by_contra hen
  rw [Bool.not_eq_false] at hen
  have hwf := wf_of_enabled hen
  rw [processing_wf, Bool.and_eq_true, isReq_iff] at hwf
  have hhead := head_of_enabled hen
  simp [(hq.1 r hwf.1).1] at hhead

theorem enabled_fwdC (st : State) (s : Nat) :
    enabled st (.fwdC s) = true ↔ isEdgeCount st.cfg s = true ∧ st.reqQOf s < st.cntOf s ∧ st.busyOf s = false := by
  simp only [enabled, Instr.wf, canForwardCount, Bool.and_eq_true, Bool.not_eq_true', decide_eq_true_eq, gt_iff_lt]

theorem enabled_resp (st : State) (r : Nat) :
    enabled st (.resp r) = true ↔ isReq st.cfg r = true ∧ st.outQOf r ≠ [] := by
  simp only [enabled, Instr.wf, canRespond, Bool.and_eq_true, Bool.not_eq_true', List.isEmpty_eq_false_iff]

theorem enabled_of_quiescent {st : State} (hq : st.Quiescent) {i : Instr} (hen : enabled st i = true) :
    Environment i = true ∨ ∃ t v, i = .notify t v := by
  have ⟨hqueues, hreqs, hlevels, hcounts, _⟩ := hq
  obtain ⟨r, m, rfl⟩ | henv | ⟨s, rfl⟩ | ⟨s, rfl⟩ | ⟨s, rfl⟩ | ⟨r, rfl⟩ | hnotify := action_kinds i
  · simp [processing_disabled_of_quiescent hq] at hen
  · exact .inl henv
  · obtain ⟨hlevel, hline, hidle⟩ := (enabled_fwdL st s).1 hen
    obtain hlow | hbusy := hlevels s hlevel
    · simp [hline] at hlow
    · simp [hidle] at hbusy
  · obtain ⟨hcount, habove, hidle⟩ := (enabled_fwdC st s).1 hen
    obtain hequal | hbusy := hcounts s hcount
    · exact absurd hequal habove.ne'
    · simp [hidle] at hbusy
  · obtain ⟨hsrc, hpos, hclear⟩ := (enabled_accept st s).1 hen
    obtain ⟨hge, hle⟩ := (isSource_iff _ _).1 hsrc
    obtain hzero | hip := hreqs s hle hge
    · exact absurd hzero hpos.ne'
    · simp [hclear] at hip
  · obtain ⟨hreq, hne⟩ := (enabled_resp st r).1 hen
    exact absurd (hqueues r ((isReq_iff _ _).1 hreq)).2 hne
  · exact .inr hnotify

/-- Settles O53: what is enabled in a quiescent state is the environment's or a notification, and a notification that is
not stale writes what the target sees already. -/
theorem quiescentStatesAwaitTheEnvironment : Obligations.QuiescentStatesAwaitTheEnvironment := by
  intro st hinv hq
  refine ⟨fun i => enabled_of_quiescent hq, fun hfresh i hwf henv => ?_, fun hmodel t v _ hguard => ?_⟩
  · cases hen : enabled st i with
    | false => exact exec_of_disabled hwf hen
    | true =>
      obtain henv' | ⟨t, v, rfl⟩ := enabled_of_quiescent hq hen
      · simp [henv] at henv'
      · have ⟨_, _, _, _, hshown⟩ := hq
        obtain ⟨ht, -, hguard⟩ := (enabled_notify st t v).1 hen
        have hv : v = st.notif.getD t false :=
          (hfresh t v ht hguard).trans (hshown t ((isTarget_iff _ _).1 ht)).symm
        have hsame : st.setNotif t v = st := by
          rw [hv]
          exact congrArg (fun l => { st with notif := l }) (set_getD_same false st.notif t)
        rw [exec_notify hinv hen, hsame]
  · cases hm : st.cfg.notifyModel with
    | wire => simp [canNotify, hm] at hguard
    | sample => exact (canNotify_sample hm t v).1 hguard
    | anyPast => exact absurd hm hmodel

end Sys2Proof.Proofs
end

section
/-! PROOFS. Sequences of actions (spec/42_claim_completion.md R156, R160). -/

namespace Sys2Proof.Proofs

open Sys2Proof Sys2Proof.Machine

/-! A completion without a claim. -/

/-- A claim takes the source it returns out of the pending ones and leaves the requests waiting. -/
theorem claimTaken_frees {st : State} (hshape : st.Shape) (r t : Nat) :
    (claimTaken r t st).ipOf (st.best t) = false ∧ (claimTaken r t st).cfg = st.cfg
      ∧ ∀ s, (claimTaken r t st).reqQOf s = st.reqQOf s := by
  obtain ⟨-, -, -, -, -, ⟨-, -, -, hreqQ⟩, hcfg, -⟩ := claimTaken_fields r t st
  exact ⟨by simp [claimTaken_ipOf hshape], hcfg, fun s => congrArg (at1 0 · s) hreqQ⟩

/-- Settles O54: the completion frees the gateway, the forwarded request waits behind the pending one, and the claim
makes way for it. -/
theorem completionWithoutClaimLosesNothing : Obligations.CompletionWithoutClaimLosesNothing := by
  intro st r t s hinv hlevel hline hip hie hhead
  have hsrc : isSource st.cfg s = true := isSource_of_kind _ _ (.inl hlevel)
  obtain ⟨u, hu, hfree, -, -, -, huline, hureqQ, huip, -, -, -, -, ⟨hucfg, -⟩, -⟩ :=
    completionReleasesTheGateway st r t s hinv hhead
  have huinv := exec_keeps_inv hinv hu
  obtain ⟨v, hv, -, hvreqQ, -, hvip, -, -, -, -, -, ⟨hvcfg, -⟩, -⟩ :=
    forwardingSendsOneRequest u s huinv (hfree hie) (.fwdL s)
      (.inl ⟨rfl, hucfg ▸ hlevel, (congrArg (at1 false · s) huline).trans hline⟩)
  have hpending : v.ipOf s = true := (congrArg (at1 false · s) (hvip.trans huip)).trans hip
  have hwaiting : v.reqQOf s = st.reqQOf s + 1 :=
    hvreqQ.trans (congrArg (· + 1) (congrArg (at1 0 · s) hureqQ))
  refine ⟨u, v, hu, hv, hwaiting, hpending, ?_, fun r' t' x hen hbest hx => ?_⟩
  · simp [Bool.eq_false_iff, enabled_accept, hpending]
  · obtain ⟨hclear, hcfg, hreqQ⟩ := claimTaken_frees (exec_keeps_inv huinv hv).shape r' t'
    rw [next_of_enabled_claim hen hx, enabled_accept, hreqQ, hcfg, hvcfg, hucfg, ← hbest]
    exact ⟨hbest ▸ hsrc, by rw [hbest, hwaiting]; exact Nat.succ_pos _, hclear⟩

/-! The flow of one interrupt. -/

/-- A source that is eligible and better than every other eligible one is the best. -/
theorem best_eq_of_better {st : State} {t s : Nat} (hsrc : isSource st.cfg s = true) (hel : st.elig t s = true)
    (hbetter : ∀ s', s' ≠ s → st.elig t s' = true → st.better s s' = true) : st.best t = s := by
  obtain ⟨hzero, -⟩ | ⟨-, hbest, hall⟩ := best_cases st t
  · exact absurd hzero (best_ne_zero_of_elig hsrc hel)
  · by_contra hne
    exact (better_iff_not_better hne).1 (hall s hsrc hel (Ne.symm hne)) (hbetter _ hne hbest)

/-- What the interrupt of source `s` has made of `st` once the target sees it: the request is pending, its gateway awaits
a completion, the level stands, and nothing that a claim weighs is changed but the one pending bit. -/
structure Delivered (s : Nat) (st u : State) : Prop where
  inv : u.Inv
  cfg : u.cfg = st.cfg
  line : u.lineOf s = true
  busy : u.busyOf s = true
  pending : u.ipOf s = true
  others : ∀ s', s' ≠ s → u.ipOf s' = st.ipOf s'
  registers : SameRegisters st u
  queues : SameQueues st u

/-- Steps 1 to 3 of R156: the gateway forwards the request and the core accepts it. -/
theorem interrupt_is_accepted {st : State} (hinv : st.Inv) {t s : Nat} (hlevel : isLevel st.cfg s = true)
    (hidle : st.busyOf s = false) (hnone : st.reqQOf s = 0) (hclear : st.ipOf s = false) (hie : st.ieOf t s = true)
    (habove : st.prioOf s > st.thrOf t) :
    ∃ u1 u2 u3, (exec (.line s true) st = .next u1 ∧ u1.lineOf s = true)
      ∧ (exec (.fwdL s) u1 = .next u2 ∧ u2.busyOf s = true ∧ u2.reqQOf s = 1)
      ∧ (exec (.accept s) u2 = .next u3 ∧ u3.ipOf s = true ∧ u3.reqQOf s = 0 ∧ u3.eip t = true)
      ∧ Delivered s st u3 := by
  have hsrc : isSource st.cfg s = true := isSource_of_kind _ _ (.inl hlevel)
  obtain ⟨u1, h1, hline1, -, hip1, hbusy1, -, hreqQ1, ⟨hprio1, hie1, hthr1⟩, ⟨hinQ1, houtQ1, hrcvd1⟩, -, ⟨hcfg1, -⟩, -⟩ :=
    lineSetsTheLevel st s true hinv hlevel
  have hinv1 := exec_keeps_inv hinv h1
  obtain ⟨u2, h2, hbusy2, hreqQ2, -, hip2, -, hline2, ⟨hprio2, hie2, hthr2⟩, ⟨hinQ2, houtQ2, hrcvd2⟩, -, ⟨hcfg2, -⟩, -⟩ :=
    forwardingSendsOneRequest u1 s hinv1 ((congrArg (at1 false · s) hbusy1).trans hidle) (.fwdL s)
      (.inl ⟨rfl, hcfg1 ▸ hlevel, hline1⟩)
  have hone : u2.reqQOf s = 1 := by rw [hreqQ2, State.reqQOf, hreqQ1, ← State.reqQOf, hnone]
  have hipst : ∀ s', u2.ipOf s' = st.ipOf s' := fun s' => congrArg (at1 false · s') (hip2.trans hip1)
  have hiest : u2.ie = st.ie := hie2.trans hie1
  have hpriost : u2.prio = st.prio := hprio2.trans hprio1
  have hthrst : u2.thr = st.thr := hthr2.trans hthr1
  obtain ⟨u3, h3, hip3, hreqQ3, -, -, hother3, hbusy3, hline3, ⟨hprio3, hie3, hthr3⟩, ⟨hinQ3, houtQ3, hrcvd3⟩, -,
    ⟨hcfg3, -⟩, heip3⟩ :=
    (acceptLatchesTheRequest u2 s (exec_keeps_inv hinv1 h2) (by rw [hcfg2, hcfg1]; exact hsrc)).1 (by omega)
      ((hipst s).trans hclear)
  have heip : u3.eip t = true := heip3 t (by rwa [State.ieOf, State.ieRow, hiest])
    (by rwa [State.prioOf, State.thrOf, hpriost, hthrst])
  refine ⟨u1, u2, u3, ⟨h1, hline1⟩, ⟨h2, hbusy2, hone⟩, ⟨h3, hip3, by rw [hreqQ3, hone], heip⟩,
    exec_keeps_inv (exec_keeps_inv hinv1 h2) h3, hcfg3.trans (hcfg2.trans hcfg1), ?_, ?_, hip3,
    fun s' hne => (hother3 s' hne).1.trans (hipst s'),
    ⟨hprio3.trans hpriost, hie3.trans hiest, hthr3.trans hthrst⟩,
    ⟨hinQ3.trans (hinQ2.trans hinQ1), houtQ3.trans (houtQ2.trans houtQ1), hrcvd3.trans (hrcvd2.trans hrcvd1)⟩⟩
  · exact (congrArg (at1 false · s) (hline3.trans hline2)).trans hline1
  · exact (congrArg (at1 false · s) hbusy3).trans hbusy2

/-- Step 4 of R156: the target is notified. -/
theorem interrupt_is_notified {s t : Nat} {st u : State} (h : Delivered s st u) (ht : isTarget st.cfg t = true)
    (hwire : st.cfg.notifyModel ≠ .wire) (heip : u.eip t = true) :
    ∃ v, exec (.notify t true) u = .next v ∧ v.notifOf t = true ∧ Delivered s st v := by
  have htarget : isTarget u.cfg t = true := h.cfg ▸ ht
  have hen := notify_eip_enabled h.inv htarget (h.cfg ▸ hwire)
  rw [heip] at hen
  have hexec := exec_notify h.inv hen
  exact ⟨_, hexec, setNotif_notifOf_self h.inv.shape htarget true,
    { h with inv := exec_keeps_inv h.inv hexec, registers := h.registers, queues := h.queues }⟩

/-- Steps 5 to 7 of R156: the claim returns the source, the requester receives its ID, and the completion releases the
gateway, which may forward again. -/
theorem interrupt_is_served {st : State} (hinv : st.Inv) {r t s : Nat} {q : List Msg} (hlevel : isLevel st.cfg s = true)
    (hline : st.lineOf s = true) (hbusy : st.busyOf s = true) (hie : st.ieOf t s = true) (hbest : st.best t = s)
    (hq : st.inQOf r = .claim t :: .complete t s :: q) (hout : st.outQOf r = []) :
    ∃ u5 u6 u7, (exec (.claim r t) st = .next u5 ∧ u5.ipOf s = false ∧ u5.outQOf r = [.cresp s])
      ∧ (exec (.resp r) u5 = .next u6 ∧ u6.rcvdOf r = st.rcvdOf r ++ [.cresp s] ∧ u6.busyOf s = true)
      ∧ (exec (.complete r t s) u6 = .next u7 ∧ u7.busyOf s = false ∧ u7.inQOf r = q ∧ enabled u7 (.fwdL s) = true) := by
  obtain ⟨u5, h5, ⟨hanswer, -⟩, ⟨hinQ5, -, hrcvd5⟩, hip5, -, ⟨-, hie5, -⟩, ⟨hbusy5, -, hline5, -⟩, -, ⟨hcfg5, -⟩⟩ :=
    claimReturnsAndClearsTheBest st r t hinv (by rw [hq]; rfl)
  rw [hbest, hout, List.nil_append] at hanswer
  have hinv5 := exec_keeps_inv hinv h5
  obtain ⟨u6, h6, -, hrcvd6, -, hinQ6, -, ⟨-, hie6, -⟩, ⟨hbusy6, -, hline6, -⟩, -, ⟨hcfg6, -⟩⟩ :=
    responsesAreDeliveredInOrder u5 r (.cresp s) [] hinv5 hanswer
  have hinv6 := exec_keeps_inv hinv5 h6
  have hq6 : u6.inQOf r = .complete t s :: q := by rw [State.inQOf, hinQ6, ← State.inQOf, hinQ5, hq, List.tail_cons]
  have hie6' : u6.ieOf t s = true := by rwa [State.ieOf, State.ieRow, hie6, hie5]
  have hhead6 : (u6.inQOf r).head? = some (.complete t s) := by rw [hq6]; rfl
  have hlevel6 : isLevel u6.cfg s = true := by rwa [hcfg6, hcfg5]
  obtain ⟨u7, h7, -, -, -, -, -, -, -, -, ⟨hinQ7, -⟩, -⟩ := completionReleasesTheGateway u6 r t s hinv6 hhead6
  obtain ⟨u7', h7', hfree, hagain⟩ := levelStillAssertedForwardsAgain u6 r t s hinv6 hlevel6 hie6' hhead6
  obtain rfl : u7 = u7' := Host.Outcome.next.inj (h7.symm.trans h7')
  refine ⟨u5, u6, u7, ⟨h5, by simp [hip5, hbest], hanswer⟩, ⟨h6, ?_, ?_⟩, h7, hfree, ?_, hagain.2 ?_⟩
  · rw [hrcvd6, State.rcvdOf, hrcvd5, ← State.rcvdOf]
  · rwa [State.busyOf, hbusy6, hbusy5]
  · rw [hinQ7, hq6, List.tail_cons]
  · rwa [State.lineOf, hline6, hline5]

/-- A delivered interrupt that was better than every eligible source is what the target's next claim returns. -/
theorem Delivered.best {s t : Nat} {st u : State} (h : Delivered s st u) (hsrc : isSource st.cfg s = true)
    (hie : st.ieOf t s = true) (habove : st.prioOf s > st.thrOf t)
    (hbetter : ∀ s', s' ≠ s → st.elig t s' = true → st.better s s' = true) : u.best t = s := by
  obtain ⟨hprio, hieu, -⟩ := h.registers
  have hprioOf : ∀ s', u.prioOf s' = st.prioOf s' := fun s' => congrArg (at1 0 · s') hprio
  have hieOf : ∀ s', u.ieOf t s' = st.ieOf t s' := fun s' => by rw [State.ieOf, State.ieRow, hieu, State.ieOf, State.ieRow]
  refine best_eq_of_better (h.cfg ▸ hsrc) ?_ fun s' hne hel => ?_
  · exact (elig_iff u t s).2 ⟨h.pending, (hieOf s).trans hie, (hprioOf s).symm ▸ Nat.ne_zero_of_lt habove⟩
  · rw [elig_iff, h.others s' hne, hieOf, hprioOf, ← elig_iff] at hel
    rw [better_iff, hprioOf, hprioOf, ← better_iff]
    exact hbetter s' hne hel

/-- Settles O55: the interrupt is accepted, notified and served. -/
theorem interruptFlowFromSourceToCompletion : Obligations.InterruptFlowFromSourceToCompletion := by
  intro st r t s q hinv hwire hlevel ht hidle hnone hclear hie habove hbetter hq hout
  obtain ⟨u1, u2, u3, h1, h2, h3, hd3⟩ := interrupt_is_accepted hinv hlevel hidle hnone hclear hie habove
  have ⟨_, _, _, heip⟩ := h3
  obtain ⟨u4, h4, hnotif, hd⟩ := interrupt_is_notified hd3 ht hwire heip
  obtain ⟨hinQ, houtQ, hrcvd⟩ := hd.queues
  obtain ⟨-, hie4, -⟩ := hd.registers
  obtain ⟨u5, u6, u7, h5, h6, h7⟩ := interrupt_is_served (r := r) (t := t) (q := q) hd.inv (hd.cfg ▸ hlevel) hd.line hd.busy
    (by rwa [State.ieOf, State.ieRow, hie4])
    (hd.best (isSource_of_kind _ _ (.inl hlevel)) hie habove hbetter)
    (by rwa [State.inQOf, hinQ]) (by rwa [State.outQOf, houtQ])
  have hrcvdOf : u4.rcvdOf r = st.rcvdOf r := congrArg (·.getD r []) hrcvd
  rw [hrcvdOf] at h6
  exact ⟨u1, u2, u3, u4, u5, u6, u7, h1, h2, h3, ⟨h4, hnotif⟩, h5, h6, h7⟩

end Sys2Proof.Proofs
end

section
/-! PROOFS. Executions (spec/20_memory.md R70, R78, spec/43_notification.md R172; D10, log 16): what one moment can do, and
what fairness makes of it. -/

namespace Sys2Proof.Proofs

open Sys2Proof Sys2Proof.Machine

/-! Moments of an execution. -/

section Moments

variable {run : Nat → State} {chosen : Nat → Event}

theorem execution_step (h : Execution run chosen) (k : Nat) :
    step (rescheduled (run k) [chosen k] (run k).tick) = .next (run (k + 1)) :=
  h k

theorem execution_inv (h0 : (run 0).Inv) (h : Execution run chosen) (k : Nat) : (run k).Inv := by
  induction k with
  | zero => exact h0
  | succ k ih => exact stepKeepsStatesWellFormed _ _ (rescheduled_inv ih _ _) (execution_step h k)

theorem execution_cfg (h : Execution run chosen) (k : Nat) : (run k).cfg = (run 0).cfg := by
  induction k with
  | zero => rfl
  | succ k ih => exact (stepKeepsConfigurationAndHistory _ _ (execution_step h k)).1.trans ih

/-- At each moment an action fires, or no action does and the event queues a message or does nothing. -/
theorem execution_moment (h : Execution run chosen) (k : Nat) :
    (∃ i, Fires run chosen k i ∧ enabled (run k) i = true
        ∧ run (k + 1) = (effect i (rescheduled (run k) [] (run k).tick)).settle)
      ∨ (firing? (run k) (chosen k) = none ∧ (run (k + 1) = rescheduled (run k) [] (run k).tick
        ∨ ∃ r m, r < (run k).cfg.reqs ∧ run (k + 1) = (rescheduled (run k) [] (run k).tick).enqueueIn r m)) := by
  have hrun : runEvent (chosen k) (rescheduled (run k) [] (run k).tick) = .next (run (k + 1)) :=
    (step_cons (st := rescheduled (run k) [chosen k] (run k).tick) rfl).symm.trans (execution_step h k)
  obtain ⟨i, hi, hen, hu⟩ | ⟨hnone, hu | ⟨r, m, hr, -, hu⟩⟩ := runEvent_fires hrun
  · exact .inl ⟨i, hi, hen, hu⟩
  · exact .inr ⟨hnone, .inl hu⟩
  · exact .inr ⟨hnone, .inr ⟨r, m, hr, hu⟩⟩

end Moments

/-! Notifications. -/

section Notifications

variable {run : Nat → State} {chosen : Nat → Event} (h0 : (run 0).Inv) (h : Execution run chosen)

include h

/-- Outside `wire` what a target sees changes by a NOTIFY alone (spec/10_state.md R35). -/
theorem notif_changed_by_notify {k t : Nat} (hwire : (run k).cfg.notifyModel ≠ .wire)
    (hne : (run (k + 1)).notifOf t ≠ (run k).notifOf t) :
    Fires run chosen k (.notify t ((run (k + 1)).notifOf t)) := by
  obtain ⟨i, hi, hen, hu⟩ | ⟨-, hu | ⟨r, m, -, hu⟩⟩ := execution_moment h k
  · have hexec : exec i (rescheduled (run k) [] (run k).tick) = .next (run (k + 1)) := hu ▸ exec_of_enabled hen
    have hby := notif_written_by (st := rescheduled (run k) [] (run k).tick) hwire hexec hne
    exact hby ▸ hi
  · exact absurd (congrArg (State.notifOf · t) hu) hne
  · exact absurd (congrArg (State.notifOf · t) hu) hne

/-- Once the core is still and only fresh notifications arrive, what the target sees stays right. -/
theorem notif_stays_eip {t j : Nat} {e : Bool} (hwire : ∀ k, (run k).cfg.notifyModel ≠ .wire)
    (hfresh : ∀ k, j ≤ k → ∀ v, Fires run chosen k (.notify t v) → v = e) (hnow : (run j).notifOf t = e) :
    ∀ k, j ≤ k → (run k).notifOf t = e := by
  refine Nat.le_induction hnow fun k hk ih => ?_
  by_contra hne
  exact hne (hfresh k hk _ (notif_changed_by_notify h (hwire k) (ih.symm ▸ hne)))

include h0

theorem notif_after_notify {k t : Nat} {v : Bool} (hfire : Fires run chosen k (.notify t v)) :
    (run (k + 1)).notifOf t = v := by
  obtain ⟨i, hi, hen, hu⟩ | ⟨hnone, -⟩ := execution_moment h k
  · obtain rfl : i = .notify t v := Option.some.inj (hi.symm.trans hfire)
    obtain ⟨ht, hwire, -⟩ := (enabled_notify _ t v).1 hen
    have hinv := rescheduled_inv (execution_inv h0 h k) [] (run k).tick
    rw [hu]
    exact (congrArg (State.notifOf · t) (settle_setNotif hinv hwire t v)).trans (setNotif_notifOf_self hinv.shape ht v)
  · exact absurd (hnone.symm.trans hfire) nofun

/-- For one target: the notification of the settled `EIP` stays due, so it fires, and from then on nothing stale does. -/
theorem notif_eventually_eip (hfair : Fair run chosen) {n t : Nat} (hwire : (run 0).cfg.notifyModel ≠ .wire)
    (hstill : ∀ m, n ≤ m → SameCore (run n) (run m)) (ht : isTarget (run 0).cfg t = true) :
    ∀ᶠ k in Filter.atTop, (run k).notifOf t = (run k).eip t := by
  have hcfg := execution_cfg h
  have hmodel : ∀ k, (run k).cfg.notifyModel ≠ .wire := fun k => hcfg k ▸ hwire
  have heip : ∀ k, n ≤ k → (run k).eip t = (run n).eip t := fun k hk => by
    obtain ⟨hip, hie, hprio, hthr⟩ := hstill k hk
    exact eip_of_fields ((hcfg k).trans (hcfg n).symm) hip hie hprio hthr t
  have hdue : ∀ k, n ≤ k → Due (run k) (.notify t ((run n).eip t)) := fun k hk => by
    refine ⟨rfl, ?_, fun t' v hv => ?_⟩
    · exact heip k hk ▸ notify_eip_enabled (execution_inv h0 h k) (hcfg k ▸ ht) (hmodel k)
    · obtain ⟨rfl, rfl⟩ := Instr.notify.inj hv
      exact (heip k hk).symm
  obtain ⟨m, hfresh⟩ := hfair.staleStops t n hstill
  obtain ⟨j, hj, hfire⟩ := hfair.weak _ (max n m) fun k hk => hdue k (le_of_max_le_left hk)
  refine Filter.eventually_atTop.2 ⟨j + 1, fun k hk => ?_⟩
  have hnk : n ≤ k := (le_of_max_le_left hj).trans ((Nat.le_succ j).trans hk)
  rw [heip k hnk]
  refine notif_stays_eip h hmodel (fun i hi v hv => ?_) (notif_after_notify h0 h hfire) k hk
  have hji := (Nat.le_succ j).trans hi
  exact (hfresh i ((le_of_max_le_right hj).trans hji) v hv).trans (heip i ((le_of_max_le_left hj).trans hji))

end Notifications

/-- Settles O48: under `wire` there is nothing to wait for; otherwise each of the finitely many targets is served in the
end. -/
theorem fairExecutionsDeliverEip : Obligations.FairExecutionsDeliverEip := by
  intro run chosen n h0 h hfair hstill
  have hcfg := execution_cfg h
  by_cases hwire : (run 0).cfg.notifyModel = .wire
  · exact ⟨n, le_refl n, fun k _ t ht =>
      (execution_inv h0 h k).wire (hcfg k ▸ hwire) t ((isTarget_iff _ _).1 ht)⟩
  · have hall : ∀ᶠ k in Filter.atTop, ∀ t ∈ Set.Iio (numTargets (run 0).cfg), (run k).notifOf t = (run k).eip t :=
      (Filter.eventually_all_finite (Set.finite_Iio _)).2 fun t ht =>
        notif_eventually_eip h0 h hfair hwire hstill ((isTarget_iff _ _).2 ht)
    obtain ⟨m, hm⟩ := Filter.eventually_atTop.1 hall
    exact ⟨max n m, le_max_left n m, fun k hk t ht =>
      hm k (le_of_max_le_right hk) t ((isTarget_iff _ _).1 (hcfg k ▸ ht))⟩

/-! Messages. -/

section Messages

variable {run : Nat → State} {chosen : Nat → Event} (h0 : (run 0).Inv) (h : Execution run chosen)

include h0 h

/-- What one moment does to a queue that is not empty: the head's action takes the head, anything else appends. -/
theorem queue_moment {k r : Nat} {m : Msg} {q : List Msg} (hq : (run k).inQOf r = m :: q) :
    (Fires run chosen k (processing r m) ∧ (run (k + 1)).inQOf r = q)
      ∨ (¬ Fires run chosen k (processing r m) ∧ ∃ new, (run (k + 1)).inQOf r = m :: q ++ new) := by
  have hsilent : firing? (run k) (chosen k) = none → ¬ Fires run chosen k (processing r m) :=
    fun hnone hfire => absurd (hnone.symm.trans hfire) nofun
  obtain ⟨i, hi, hen, hu⟩ | ⟨hnone, hu | ⟨r', m', hr', hu⟩⟩ := execution_moment h k <;> rw [hu]
  · obtain ⟨hsame, hnot⟩ | ⟨m', rfl, htaken⟩ :=
      effect_inQOf (i := i) (st := rescheduled (run k) [] (run k).tick) r
    · exact .inr ⟨fun hfire => hnot m (Option.some.inj (hi.symm.trans hfire)),
        [], by rw [hsame, List.append_nil]; exact hq⟩
    · obtain rfl : m' = m := Option.some.inj ((head_of_enabled hen).symm.trans (by rw [hq]; rfl))
      exact .inl ⟨hi, htaken.trans (congrArg List.tail hq)⟩
  · exact .inr ⟨hsilent hnone, [], by rw [List.append_nil]; exact hq⟩
  · refine .inr ⟨hsilent hnone, ?_⟩
    have hread := enqueueIn_inQOf (rescheduled (run k) [] (run k).tick) r' r m' ((execution_inv h0 h k).shape.inQ ▸ hr')
    split at hread
    case isTrue hr => exact ⟨[m'], hread.trans (congrArg (· ++ [m']) (hr ▸ hq))⟩
    case isFalse => exact ⟨[], by rw [hread, List.append_nil]; exact hq⟩

/-- A head whose action has not fired is a head still (spec/20_memory.md R72). -/
theorem head_stays {n j r : Nat} {m : Msg} {q : List Msg} (hq : (run n).inQOf r = m :: q) (hj : n ≤ j)
    (hnot : ∀ i, n ≤ i → i < j → ¬ Fires run chosen i (processing r m)) : ∃ new, (run j).inQOf r = m :: q ++ new := by
  induction j, hj using Nat.le_induction with
  | base => exact ⟨[], by rw [hq, List.append_nil]⟩
  | succ j hj ih =>
    obtain ⟨new, hnew⟩ := ih fun i hi hij => hnot i hi (hij.trans (Nat.lt_succ_self j))
    obtain ⟨hfire, -⟩ | ⟨-, new', hnew'⟩ := queue_moment h0 h hnew
    · exact absurd hfire (hnot j hj (Nat.lt_succ_self j))
    · exact ⟨new ++ new', hnew'.trans (List.append_assoc (m :: q) new new')⟩

/-- The action of a head that stays is due for ever, so fairness lets it fire (spec/20_memory.md R78). -/
theorem head_fires (hfair : Fair run chosen) {n r : Nat} {m : Msg} {q : List Msg} (hq : (run n).inQOf r = m :: q) :
    ∃ k, n ≤ k ∧ Fires run chosen k (processing r m) := by
  by_contra hnever
  simp only [not_exists, not_and] at hnever
  refine absurd (hfair.weak (processing r m) n fun k hk => ?_) (by simpa using hnever)
  obtain ⟨new, hnew⟩ := head_stays h0 h hq hk fun i hi _ => hnever i hi
  have hhead : ((run k).inQOf r).head? = some m := by rw [hnew]; rfl
  exact ⟨processing_not_environment r m, enabled_of_head (execution_inv h0 h k) hhead,
    fun t v hv => absurd hv (processing_ne_notify r m t v)⟩

end Messages

/-- Settles O49 with the first moment at which the head's action fires. -/
theorem fairExecutionsServeEveryMessage : Obligations.FairExecutionsServeEveryMessage := by
  classical
  intro run chosen n r m q h0 h hfair hq
  have hsome := head_fires h0 h hfair hq
  obtain ⟨hk, hfire⟩ := Nat.find_spec hsome
  have hstays : ∀ j, n ≤ j → j ≤ Nat.find hsome → ∃ new, (run j).inQOf r = m :: q ++ new := fun j hj hjk =>
    head_stays h0 h hq hj fun i hi hij hf => Nat.find_min hsome (hij.trans_le hjk) ⟨hi, hf⟩
  refine ⟨Nat.find hsome, hk, hfire, hstays, ?_⟩
  obtain ⟨new, hnew⟩ := hstays _ hk (le_refl _)
  obtain ⟨-, htaken⟩ | ⟨hnot, -⟩ := queue_moment h0 h hnew
  · exact ⟨new, htaken⟩
  · exact absurd hfire hnot

end Sys2Proof.Proofs
end

section
/-! PROOFS. The software protocol (spec/42_claim_completion.md R155; log 39): `busy` counts the one request of its source,
by a step lemma over one source and an induction over the execution. -/

namespace Sys2Proof.Proofs

open Sys2Proof Sys2Proof.Machine

/-! What an enabled action does to the request of one source. -/

/-- The five ways in which an enabled action `i` that leads from `st` to `u` can move the request of source `s`. -/
inductive RequestMove (i : Instr) (s : Nat) (st u : State) : Prop where
  /-- it stays where it is -/
  | stays (hclaim : ∀ r t, i = .claim r t → st.best t ≠ s) (hcomplete : ∀ r t, i ≠ .complete r t s)
      (hbusy : u.busyOf s = st.busyOf s) (hreqQ : u.reqQOf s = st.reqQOf s) (hip : u.ipOf s = st.ipOf s)
  /-- the idle gateway forwards one -/
  | forwarded (hclaim : ∀ r t, i ≠ .claim r t) (hcomplete : ∀ r t, i ≠ .complete r t s)
      (hidle : st.busyOf s = false) (hbusy : u.busyOf s = true) (hreqQ : u.reqQOf s = st.reqQOf s + 1)
      (hip : u.ipOf s = st.ipOf s)
  /-- the core accepts it -/
  | accepted (hi : i = .accept s) (hbusy : u.busyOf s = st.busyOf s) (hreqQ : u.reqQOf s + 1 = st.reqQOf s)
      (hclear : st.ipOf s = false) (hip : u.ipOf s = true)
  /-- a claim returns it -/
  | claimed (hi : ∃ r t, i = .claim r t ∧ st.best t = s) (hbusy : u.busyOf s = st.busyOf s)
      (hreqQ : u.reqQOf s = st.reqQOf s) (hpending : st.ipOf s = true) (hip : u.ipOf s = false)
  /-- a completion for it is processed -/
  | completed (hi : ∃ r t, i = .complete r t s ∧ u.busyOf s = (st.busyOf s && !st.ieOf t s))
      (hreqQ : u.reqQOf s = st.reqQOf s) (hip : u.ipOf s = st.ipOf s)

/-- Every action but ACCEPT, CLAIM and COMPLETE leaves the request where it is, or forwards it. -/
theorem requestMove_of_other {i : Instr} {st u : State} (hinv : st.Inv) (h : exec i st = .next u) (s : Nat)
    (hacc : ∀ s', i ≠ .accept s') (hclaim : ∀ r t, i ≠ .claim r t) (hcomplete : ∀ r t s', i ≠ .complete r t s') :
    RequestMove i s st u := by
  have hip : u.ipOf s = st.ipOf s := by
    obtain hip | ⟨s', hi, -⟩ | ⟨r, t, hi, -⟩ := exec_pending h
    · exact congrArg (at1 false · s) hip
    · exact absurd hi (hacc s')
    · exact absurd hi (hclaim r t)
  have hstays : u.busyOf s = st.busyOf s ∧ u.reqQOf s = st.reqQOf s → RequestMove i s st u := fun ⟨hbusy, hreqQ⟩ =>
    .stays (fun r t hi => absurd hi (hclaim r t)) (fun r t => hcomplete r t s) hbusy hreqQ hip
  obtain hsame | ⟨s', hf⟩ | ⟨s', hi, -⟩ | ⟨r, t, s', hi, -⟩ := exec_requests h
  · exact hstays (hsame.reads s)
  · by_cases hs : s = s'
    · subst hs
      obtain ⟨hbusy, hreqQ⟩ := hf.reads_self hinv.shape
      exact .forwarded hclaim (fun r t => hcomplete r t s) hf.idle hbusy hreqQ hip
    · exact hstays (hf.reads_ne hs)
  · exact absurd hi (hacc s')
  · exact absurd hi (hcomplete r t s')

theorem requestMove_of_accept {st : State} (hinv : st.Inv) {s' : Nat} (hen : enabled st (.accept s') = true) (s : Nat) :
    RequestMove (.accept s') s st (requestAccepted s' st) := by
  obtain ⟨hsrc, hpos, hclear⟩ := (enabled_accept st s').1 hen
  obtain ⟨-, -, -, hbusy, -⟩ := requestAccepted_fields s' st
  have hbusyOf : (requestAccepted s' st).busyOf s = st.busyOf s := congrArg (at1 false · s) hbusy
  have hip := requestAccepted_ipOf hinv.shape hsrc s
  by_cases hs : s = s'
  · subst hs
    refine .accepted rfl hbusyOf ?_ hclear (by simp [hip])
    rw [requestAccepted_reqQOf_self hinv.shape hsrc]
    omega
  · exact .stays nofun nofun hbusyOf (requestAccepted_reqQOf_ne hs) (by simp [hip, hs])

theorem requestMove_of_claim {st : State} (hinv : st.Inv) (r t : Nat) {s : Nat} (hs : s ≠ 0) :
    RequestMove (.claim r t) s st (claimTaken r t st) := by
  obtain ⟨-, -, -, -, -, ⟨hbusy, -, -, hreqQ⟩, -⟩ := claimTaken_fields r t st
  have hbusyOf : (claimTaken r t st).busyOf s = st.busyOf s := congrArg (at1 false · s) hbusy
  have hreqQOf : (claimTaken r t st).reqQOf s = st.reqQOf s := congrArg (at1 0 · s) hreqQ
  have hip := claimTaken_ipOf hinv.shape r t s
  by_cases hbest : st.best t = s
  · have hpending := ((elig_iff _ _ _).1 (best_elig (hbest ▸ hs)).2).1
    exact .claimed ⟨r, t, rfl, hbest⟩ hbusyOf hreqQOf (hbest ▸ hpending) (by simp [hip, hbest])
  · refine .stays (fun r' t' hi => ?_) nofun hbusyOf hreqQOf (by simp [hip, Ne.symm hbest])
    obtain ⟨-, rfl⟩ := Instr.claim.inj hi
    exact hbest

theorem requestMove_of_complete {st : State} (hinv : st.Inv) {r t s' : Nat}
    (hen : enabled st (.complete r t s') = true) (s : Nat) :
    RequestMove (.complete r t s') s st (completionTaken r t s' st) := by
  have hsrc := source_of_complete_head hinv (head_of_enabled (m := .complete t s') hen)
  obtain ⟨-, -, -, hreqQ, hip, -⟩ := completionTaken_fields r t s' st
  have hreqQOf : (completionTaken r t s' st).reqQOf s = st.reqQOf s := congrArg (at1 0 · s) hreqQ
  have hipOf : (completionTaken r t s' st).ipOf s = st.ipOf s := congrArg (at1 false · s) hip
  obtain ⟨hself, hother⟩ := completionTaken_busyOf hinv.shape r t hsrc
  by_cases hs : s = s'
  · subst hs
    exact .completed ⟨r, t, rfl, hself⟩ hreqQOf hipOf
  · refine .stays nofun (fun r' t' hi => ?_) (hother s hs) hreqQOf hipOf
    obtain ⟨-, -, rfl⟩ := Instr.complete.inj hi
    exact hs rfl

theorem requestMove_of_enabled {i : Instr} {st : State} (hinv : st.Inv) (hen : enabled st i = true) {s : Nat}
    (hs : s ≠ 0) : RequestMove i s st (effect i st).settle := by
  cases i with
  | accept s' => exact requestMove_of_accept hinv hen s
  | claim r t => exact requestMove_of_claim hinv r t hs
  | complete r t s' =>
    have hexec := exec_complete_head hinv (head_of_enabled (m := .complete t s') hen)
    rw [Host.Outcome.next.inj ((exec_of_enabled hen).symm.trans hexec)]
    exact requestMove_of_complete hinv hen s
  | _ => exact requestMove_of_other hinv (exec_of_enabled hen) s nofun nofun nofun

/-! What the two counters of R155 see. -/

theorem claimsNow_of_claim {st : State} {e : Event} {r t : Nat} (h : firing? st e = some (.claim r t)) (s : Nat) :
    claimsNow st e s = decide (st.best t = s) := by
  simp only [claimsNow, h]

theorem completesNow_of_complete {st : State} {e : Event} {r t s' : Nat} (h : firing? st e = some (.complete r t s'))
    (s : Nat) : completesNow st e s = decide (s' = s) := by
  simp only [completesNow, h]

theorem claimsNow_eq_false {st : State} {e : Event} {s : Nat}
    (h : ∀ r t, firing? st e = some (.claim r t) → st.best t ≠ s) : claimsNow st e s = false := by
  unfold claimsNow
  split
  case h_1 r t hfire => exact decide_eq_false (h r t hfire)
  case h_2 => rfl

theorem completesNow_eq_false {st : State} {e : Event} {s : Nat}
    (h : ∀ r t, firing? st e ≠ some (.complete r t s)) : completesNow st e s = false := by
  unfold completesNow
  split
  case h_1 r t s' hfire => exact decide_eq_false fun hs => h r t (hs ▸ hfire)
  case h_2 => rfl

/-! The invariant of the protocol. -/

/-- `busy[s]` counts the requests of `s`: those waiting, the pending one, and those claimed and not completed. -/
def CountsRequests (st : State) (s claims : Nat) : Prop :=
  (st.busyOf s).toNat = st.reqQOf s + (st.ipOf s).toNat + claims

/-- The claims outstanding after a moment at which `i` fires, by how it moves the request. -/
theorem countsRequests_of_move {i : Instr} {s claims : Nat} {st u : State} {e : Event} (hfire : firing? st e = some i)
    (hcount : CountsRequests st s claims) (hmove : RequestMove i s st u)
    (hprotocol : ∀ r t, i = .complete r t s → st.ieOf t s = true ∧ 1 ≤ claims) :
    CountsRequests u s (claims + (claimsNow st e s).toNat - (completesNow st e s).toNat) := by
  unfold CountsRequests at *
  have hfiring : ∀ {j}, firing? st e = some j → i = j := fun hj => Option.some.inj (hfire.symm.trans hj)
  have hnoClaim : (∀ r t, i = .claim r t → st.best t ≠ s) → claimsNow st e s = false := fun hne =>
    claimsNow_eq_false fun r t hj => hne r t (hfiring hj)
  have hnoComplete : (∀ r t, i ≠ .complete r t s) → completesNow st e s = false := fun hne =>
    completesNow_eq_false fun r t hj => hne r t (hfiring hj)
  cases hmove with
  | stays hclaim hcomplete hbusy hreqQ hip =>
    simpa [hnoClaim hclaim, hnoComplete hcomplete, hbusy, hreqQ, hip] using hcount
  | forwarded hclaim hcomplete hidle hbusy hreqQ hip =>
    simp only [hidle, Bool.toNat_false] at hcount
    simp only [hnoClaim fun r t hi => absurd hi (hclaim r t), hnoComplete hcomplete, hbusy, hreqQ, hip, Bool.toNat_true,
      Bool.toNat_false]
    omega
  | accepted hi hbusy hreqQ hclear hip =>
    subst hi
    simp only [hclear, Bool.toNat_false] at hcount
    simp only [hnoClaim nofun, hnoComplete nofun, hbusy, hip, Bool.toNat_true, Bool.toNat_false]
    omega
  | claimed hi hbusy hreqQ hpending hip =>
    obtain ⟨r, t, rfl, hbest⟩ := hi
    simp only [hpending, Bool.toNat_true] at hcount
    simp only [claimsNow_of_claim hfire, hbest, hnoComplete nofun, hbusy, hreqQ, hip, decide_true, Bool.toNat_true,
      Bool.toNat_false]
    omega
  | completed hi hreqQ hip =>
    obtain ⟨r, t, rfl, hbusy⟩ := hi
    obtain ⟨hie, hclaimed⟩ := hprotocol r t rfl
    have hone := Bool.toNat_le (st.busyOf s)
    simp only [completesNow_of_complete hfire, hnoClaim nofun, hbusy, hreqQ, hip, hie, decide_true, Bool.not_true,
      Bool.and_false, Bool.toNat_true, Bool.toNat_false]
    omega

theorem execution_countsRequests {run : Nat → State} {chosen : Nat → Event} (h0 : (run 0).Inv)
    (h : Execution run chosen) (hprotocol : FollowsProtocol run chosen) {s : Nat} (hs : s ≠ 0)
    (hstart : CountsRequests (run 0) s 0) (n : Nat) : CountsRequests (run n) s (outstanding run chosen s n) := by
  induction n with
  | zero => exact hstart
  | succ n ih =>
    have hinv := rescheduled_inv (execution_inv h0 h n) [] (run n).tick
    obtain ⟨i, hi, hen, hu⟩ | ⟨hnone, hu⟩ := execution_moment h n
    · have hmove := requestMove_of_enabled (st := rescheduled (run n) [] (run n).tick) hinv hen hs
      refine hu ▸ countsRequests_of_move (st := rescheduled (run n) [] (run n).tick) hi ih hmove fun r t hcomplete => ?_
      exact hprotocol n r t s (hcomplete ▸ hi)
    · have hclaim : claimsNow (run n) (chosen n) s = false := claimsNow_eq_false (by simp [hnone])
      have hcomplete : completesNow (run n) (chosen n) s = false := completesNow_eq_false (by simp [hnone])
      have hsame : outstanding run chosen s (n + 1) = outstanding run chosen s n := by
        simp [outstanding, hclaim, hcomplete]
      rw [hsame]
      obtain hu | ⟨r, m, -, hu⟩ := hu <;> exact hu ▸ ih

/-- Settles O56: the count holds at the start, where everything is 0, and every moment keeps it. -/
theorem protocolKeepsOneRequestPerSource : Obligations.ProtocolKeepsOneRequestPerSource := by
  intro run chosen h0 h hprotocol hidle n s hsrc
  have hs : s ≠ 0 := Nat.ne_zero_of_lt ((isSource_iff _ _).1 hsrc).1
  have hstart : CountsRequests (run 0) s 0 := by
    obtain ⟨hbusy, hreqQ, hip⟩ := hidle s
    simp [CountsRequests, hbusy, hreqQ, hip]
  have hcount : _ = _ := execution_countsRequests h0 h hprotocol hs hstart n
  have hone := Bool.toNat_le ((run n).busyOf s)
  refine ⟨hcount, by omega, fun hfree => ?_⟩
  rw [hfree, Bool.toNat_false] at hcount
  omega

end Sys2Proof.Proofs
end

section
/-! PROOFS. Values on the bus (spec/20_memory.md R64; D13, log 35): bytes are digits to the base 256. -/

namespace Sys2Proof.Proofs

open Sys2Proof Sys2Proof.Machine

theorem leBytes_getD (n v : Nat) {i : Nat} (h : i < n) : ((leBytes n v).getD i 0).toNat = v / 256 ^ i % 256 := by
  induction n generalizing v i with
  | zero => omega
  | succ n ih =>
    cases i with
    | zero => simp [leBytes]
    | succ i =>
      have hrest := ih (v / 256) (Nat.lt_of_succ_lt_succ h)
      rwa [Nat.div_div_eq_div_mul, ← pow_succ'] at hrest

theorem leValue_leBytes (n v : Nat) : leValue (leBytes n v) = v % 256 ^ n := by
  induction n generalizing v with
  | zero => simp [leBytes, leValue, Nat.mod_one]
  | succ n ih =>
    rw [leBytes, leValue, ih, pow_succ', Nat.mod_mul]
    simp

theorem leValue_lt (bs : List Byte) : leValue bs < 256 ^ bs.length := by
  induction bs with
  | nil => simp [leValue]
  | cons b bs ih =>
    have hb : b.toNat < 256 := b.isLt
    rw [leValue, List.length_cons, pow_succ']
    omega

/-- The first byte is the last digit, and the bytes after it are the digits above. -/
theorem leValue_cons (b : Byte) (bs : List Byte) :
    leValue (b :: bs) % 256 = b.toNat ∧ leValue (b :: bs) / 256 = leValue bs := by
  have hb : b.toNat < 256 := b.isLt
  rw [leValue]
  omega

theorem leValue_digit (bs : List Byte) {i : Nat} (h : i < bs.length) :
    leValue bs / 256 ^ i % 256 = (bs.getD i 0).toNat := by
  induction bs generalizing i with
  | nil => simp at h
  | cons b bs ih =>
    obtain ⟨hlow, hhigh⟩ := leValue_cons b bs
    cases i with
    | zero => simpa using hlow
    | succ i =>
      rw [pow_succ', ← Nat.div_div_eq_div_mul, hhigh, ih (Nat.lt_of_succ_lt_succ h), List.getD_cons_succ]

theorem leBytes_leValue (bs : List Byte) : leBytes bs.length (leValue bs) = bs := by
  induction bs with
  | nil => rfl
  | cons b bs ih =>
    obtain ⟨hlow, hhigh⟩ := leValue_cons b bs
    have hbyte : BitVec.ofNat 8 (leValue (b :: bs)) = b :=
      BitVec.eq_of_toNat_eq ((BitVec.toNat_ofNat _ _).trans hlow)
    rw [List.length_cons, leBytes, hhigh, ih, hbyte]

/-- Settles O57. -/
theorem busValuesAreLittleEndian : Obligations.BusValuesAreLittleEndian := by
  refine ⟨fun n v => ⟨leBytes_length n v, fun _ => leBytes_getD n v, leValue_leBytes n v⟩,
    fun bs => ⟨leValue_lt bs, fun _ => leValue_digit bs, leBytes_leValue bs⟩, ?_⟩
  rintro m n v (rfl | rfl) <;> exact ⟨leBytes_length n v, fun _ => leBytes_getD n v⟩

end Sys2Proof.Proofs
end

section
/-! PROOFS. What a bus access stands for (spec/30_encoding.md R100 to R102, spec/20_memory.md R63; D17, logs 13 to 15). -/

namespace Sys2Proof.Proofs

open Sys2Proof Sys2Proof.Machine

/-! Accesses, by the register they reach. -/

theorem access_of_misfit {c : Cfg} {addr n : Nat} (h : accessFits c.regMap addr n = false) (w : Nat) :
    busReadMeaning c addr n = .refused ∧ busWriteMeaning c addr n w = .refused := by
  simp [busReadMeaning, busWriteMeaning, h]

theorem read_of_port {c : Cfg} {addr n : Nat} {p : ReadPort} (hfits : accessFits c.regMap addr n = true)
    (hp : readPort? c.regMap addr = some p) :
    busReadMeaning c addr n = if msgInRange c (readMsg p) then .message (readMsg p) else .refused := by
  simp only [busReadMeaning, hfits, hp, if_true]

theorem read_of_no_port {c : Cfg} {addr : Nat} (hp : readPort? c.regMap addr = none) (n : Nat) :
    busReadMeaning c addr n = .refused := by
  simp [busReadMeaning, hp]

theorem write_of_port {c : Cfg} {addr n : Nat} {p : WritePort} (hfits : accessFits c.regMap addr n = true)
    (hp : writePort? c.regMap addr = some p) (w : Nat) :
    busWriteMeaning c addr n w = if msgInRange c (writeMsg w p) then .message (writeMsg w p) else .ignored := by
  simp only [busWriteMeaning, hfits, hp, if_true]

theorem write_of_no_port {c : Cfg} {addr n : Nat} (hfits : accessFits c.regMap addr n = true)
    (hp : writePort? c.regMap addr = none) (w : Nat) : busWriteMeaning c addr n w = .ignored := by
  simp only [busWriteMeaning, hfits, hp, if_true]

theorem read_ne_ignored (c : Cfg) (addr n : Nat) : busReadMeaning c addr n ≠ .ignored := by
  cases hfits : accessFits c.regMap addr n with
  | false => simp [(access_of_misfit hfits 0).1]
  | true =>
    cases hp : readPort? c.regMap addr with
    | none => simp [read_of_no_port hp]
    | some p =>
      rw [read_of_port hfits hp]
      split <;> nofun

theorem write_ne_refused {c : Cfg} {addr n : Nat} (hfits : accessFits c.regMap addr n = true) (w : Nat) :
    busWriteMeaning c addr n w ≠ .refused := by
  cases hp : writePort? c.regMap addr with
  | none => simp [write_of_no_port hfits hp]
  | some p =>
    rw [write_of_port hfits hp]
    split <;> nofun

/-- Settles O59: a message is that of the port reached, and there is one message for each kind of port. -/
theorem accessesBecomeMessagesOfTheirKind : Obligations.AccessesBecomeMessagesOfTheirKind := by
  intro c addr n w
  refine ⟨fun m h => ?_, fun m h => ?_, fun hmisfit => access_of_misfit hmisfit w, fun hfits =>
    ⟨read_ne_ignored c addr n, write_ne_refused hfits w, fun hp => read_of_no_port hp n,
      fun hp => write_of_no_port hfits hp w⟩⟩
  · obtain ⟨p, -, rfl, hm⟩ := busReadMeaning_message h
    refine ⟨hm, ?_⟩
    cases p with
    | prio s => exact .inl ⟨s, rfl⟩
    | ie t k => exact .inr (.inl ⟨t, k, rfl⟩)
    | thr t => exact .inr (.inr (.inl ⟨t, rfl⟩))
    | ip k => exact .inr (.inr (.inr (.inl ⟨k, rfl⟩)))
    | claim t => exact .inr (.inr (.inr (.inr ⟨t, rfl⟩)))
  · obtain ⟨p, -, rfl, hm⟩ := busWriteMeaning_message h
    refine ⟨hm, ?_⟩
    cases p with
    | prio s => exact .inl ⟨s, rfl⟩
    | ie t k => exact .inr (.inl ⟨t, k, rfl⟩)
    | thr t => exact .inr (.inr (.inl ⟨t, rfl⟩))
    | complete t => exact .inr (.inr (.inr ⟨t, rfl⟩))

/-! The reference map: each register at its own offset. -/

/-- The offset of a register of the reference map (spec/30_encoding.md R101). -/
def refOffset : RefRegister → Nat
  | .prio s => 4 * s
  | .pending k => 0x1000 + 4 * k
  | .enable t k => 0x2000 + 0x80 * t + 4 * k
  | .threshold t => 0x200000 + 0x1000 * t
  | .claimComplete t => 0x200004 + 0x1000 * t

/-- The register is one of those that the layout has room for: 1024 sources, 15872 targets (spec/30_encoding.md R101). -/
def RefFits : RefRegister → Prop
  | .prio s => s < 1024
  | .pending k => k < 32
  | .enable t k => t < 15872 ∧ k < 32
  | .threshold t => t < 15872
  | .claimComplete t => t < 15872

theorem refRegister_refOffset {reg : RefRegister} (h : RefFits reg) : refRegister (refOffset reg) = some reg := by
  cases reg with
  | prio s =>
    simp only [RefFits] at h
    rw [refOffset, refRegister, if_pos (by omega), show 4 * s / 4 = s by omega]
  | pending k =>
    simp only [RefFits] at h
    rw [refOffset, refRegister, if_neg (by omega), if_pos (by omega), show (0x1000 + 4 * k) / 4 % 32 = k by omega]
  | enable t k =>
    obtain ⟨ht, hk⟩ := h
    rw [refOffset, refRegister, if_neg (by omega), if_neg (by omega), if_neg (by omega), if_pos (by omega),
      show (0x2000 + 0x80 * t + 4 * k - 0x2000) / 128 = t by omega,
      show (0x2000 + 0x80 * t + 4 * k) / 4 % 32 = k by omega]
  | threshold t =>
    rw [refOffset, refRegister, if_neg (by omega), if_neg (by omega), if_neg (by omega), if_neg (by omega),
      if_neg (by omega), if_pos (by omega), show (0x200000 + 0x1000 * t - 0x200000) / 4096 = t by omega]
  | claimComplete t =>
    rw [refOffset, refRegister, if_neg (by omega), if_neg (by omega), if_neg (by omega), if_neg (by omega),
      if_neg (by omega), if_neg (by omega), if_pos (by omega),
      show (0x200004 + 0x1000 * t - 0x200000) / 4096 = t by omega]

theorem refOffset_aligned (reg : RefRegister) : refOffset reg % 4 = 0 := by
  cases reg <;> simp only [refOffset] <;> omega

theorem refOffset_lt {reg : RefRegister} (h : RefFits reg) : refOffset reg < 0x4000000 := by
  cases reg <;> simp only [refOffset, RefFits] at h ⊢ <;> omega

/-- An aligned offset at which there is a register is the offset of that register. -/
theorem refOffset_of_refRegister {off : Nat} {reg : RefRegister} (h : refRegister off = some reg) (h4 : off % 4 = 0) :
    off = refOffset reg := by
  unfold refRegister at h
  split_ifs at h <;> obtain rfl := Option.some.inj h <;> simp only [refOffset] <;> omega

/-- The register exists in the configuration. -/
def RefExists (c : Cfg) (reg : RefRegister) : Prop := msgInRange c (readMsg (refRead reg)) = true

/-- A write that is in range reaches a register that exists. -/
theorem refExists_of_write {c : Cfg} {reg : RefRegister} {p : WritePort} {w : Nat} (hp : refWrite reg = some p)
    (hm : msgInRange c (writeMsg w p) = true) : RefExists c reg := by
  cases reg with
  | pending k => cases hp
  | claimComplete t =>
    obtain rfl := Option.some.inj hp
    exact ((Bool.and_eq_true _ _).mp hm).1
  | prio | enable | threshold =>
    obtain rfl := Option.some.inj hp
    exact hm

/-- What a well-formed configuration on the reference map states (spec/30_encoding.md R101). -/
theorem reference_wf {c : Cfg} {base : Nat} (h : c.wf = true) (hmap : c.regMap = .reference base) :
    base % 4096 = 0 ∧ c.g = 32 ∧ numSources c ≤ 1023 ∧ numTargets c ≤ 15872 := by
  simp only [Cfg.wf, hmap, RegMap.wf, Bool.and_eq_true, decide_eq_true_eq] at h
  obtain ⟨⟨-, hbase, hg, -, hn, ht⟩, -⟩ := h
  exact ⟨hbase, hg, hn, ht⟩

theorem packedReg_lt {c : Cfg} {k : Nat} (hg : c.g = 32) (hn : numSources c ≤ 1023) (hk : isPackedReg c k = true) :
    k < 32 := by
  simp only [isPackedReg, hg, decide_eq_true_eq] at hk
  omega

theorem refFits_of_exists {c : Cfg} {base : Nat} (h : c.wf = true) (hmap : c.regMap = .reference base)
    {reg : RefRegister} (hreg : RefExists c reg) : RefFits reg := by
  obtain ⟨-, hg, hn, ht⟩ := reference_wf h hmap
  cases reg with
  | prio s => exact Nat.lt_succ_of_le (((isSource_iff c s).1 hreg).2.trans hn)
  | pending k => exact packedReg_lt hg hn hreg
  | enable t k =>
    obtain ⟨htarget, hk⟩ := (Bool.and_eq_true _ _).mp hreg
    exact ⟨((isTarget_iff c t).1 htarget).trans_le ht, packedReg_lt hg hn hk⟩
  | threshold t => exact ((isTarget_iff c t).1 hreg).trans_le ht
  | claimComplete t => exact ((isTarget_iff c t).1 hreg).trans_le ht

section Reference

variable {c : Cfg} {base : Nat} (hwf : c.wf = true) (hmap : c.regMap = .reference base)

include hmap

theorem readPort?_reference {addr : Nat} {p : ReadPort} (h : readPort? c.regMap addr = some p) :
    base ≤ addr ∧ ∃ reg, refRegister (addr - base) = some reg ∧ p = refRead reg := by
  simp only [hmap, readPort?, inWindow, decide_eq_true_eq] at h
  split at h
  case isTrue hwindow =>
    obtain ⟨reg, hreg, hp⟩ := Option.map_eq_some_iff.1 h
    exact ⟨hwindow.1, reg, hreg, hp.symm⟩
  case isFalse => cases h

theorem writePort?_reference {addr : Nat} {p : WritePort} (h : writePort? c.regMap addr = some p) :
    base ≤ addr ∧ ∃ reg, refRegister (addr - base) = some reg ∧ refWrite reg = some p := by
  simp only [hmap, writePort?, inWindow, decide_eq_true_eq] at h
  split at h
  case isTrue hwindow =>
    obtain ⟨reg, hreg, hp⟩ := Option.bind_eq_some_iff.1 h
    exact ⟨hwindow.1, reg, hreg, hp⟩
  case isFalse => cases h

include hwf

/-- The ports at the address of a register that exists. -/
theorem ports_at_register {reg : RefRegister} (hreg : RefExists c reg) :
    accessFits c.regMap (base + refOffset reg) 4 = true
      ∧ readPort? c.regMap (base + refOffset reg) = some (refRead reg)
      ∧ writePort? c.regMap (base + refOffset reg) = refWrite reg := by
  obtain ⟨hbase, -⟩ := reference_wf hwf hmap
  have hfits := refFits_of_exists hwf hmap hreg
  have haligned := refOffset_aligned reg
  have hsub : base + refOffset reg - base = refOffset reg := Nat.add_sub_cancel_left _ _
  have hwindow : inWindow base (base + refOffset reg) = true := by
    simp [inWindow, hsub, refOffset_lt hfits]
  refine ⟨?_, ?_, ?_⟩
  · simp only [hmap, accessFits, true_and, decide_eq_true_eq]
    omega
  · simp only [hmap, readPort?, hwindow, if_true, hsub, refRegister_refOffset hfits, Option.map_some]
  · simp only [hmap, writePort?, hwindow, if_true, hsub, refRegister_refOffset hfits, Option.bind_some]

theorem read_at_register {reg : RefRegister} (hreg : RefExists c reg) :
    busReadMeaning c (base + refOffset reg) 4 = .message (readMsg (refRead reg)) := by
  obtain ⟨hfits, hread, -⟩ := ports_at_register hwf hmap hreg
  exact (read_of_port hfits hread).trans (if_pos hreg)

theorem write_at_register {reg : RefRegister} (hreg : RefExists c reg) {p : WritePort} (hp : refWrite reg = some p)
    (w : Nat) : busWriteMeaning c (base + refOffset reg) 4 w
      = if msgInRange c (writeMsg w p) then .message (writeMsg w p) else .ignored := by
  obtain ⟨hfits, -, hwrite⟩ := ports_at_register hwf hmap hreg
  exact write_of_port hfits (hwrite.trans hp) w

theorem write_at_pending {k : Nat} (hreg : RefExists c (.pending k)) (w : Nat) :
    busWriteMeaning c (base + refOffset (.pending k)) 4 w = .ignored := by
  obtain ⟨hfits, -, hwrite⟩ := ports_at_register hwf hmap hreg
  exact write_of_no_port hfits hwrite w

/-- An aligned word at which no register that exists stands: reads are refused and writes ignored. -/
theorem access_elsewhere {addr : Nat} (h4 : addr % 4 = 0) (hnone : ∀ reg, RefExists c reg → addr ≠ base + refOffset reg)
    (w : Nat) : busReadMeaning c addr 4 = .refused ∧ busWriteMeaning c addr 4 w = .ignored := by
  obtain ⟨hbase, -⟩ := reference_wf hwf hmap
  have hfits : accessFits c.regMap addr 4 = true := by simp [hmap, accessFits, h4]
  have hmissing : ∀ reg, base ≤ addr → refRegister (addr - base) = some reg → ¬ RefExists c reg := by
    intro reg hle hreg hexists
    have hoff := refOffset_of_refRegister hreg (by omega)
    exact hnone reg hexists (by omega)
  constructor
  · cases hp : readPort? c.regMap addr with
    | none => exact read_of_no_port hp 4
    | some p =>
      obtain ⟨hle, reg, hreg, rfl⟩ := readPort?_reference hmap hp
      exact (read_of_port hfits hp).trans (if_neg (hmissing reg hle hreg))
  · cases hp : writePort? c.regMap addr with
    | none => exact write_of_no_port hfits hp w
    | some p =>
      obtain ⟨hle, reg, hreg, hwrite⟩ := writePort?_reference hmap hp
      exact (write_of_port hfits hp w).trans (if_neg fun hm => hmissing reg hle hreg (refExists_of_write hwrite hm))

end Reference

/-- Settles O58: each register that exists stands at its offset, and nothing else stands at an aligned word. -/
theorem referenceMapReachesEachRegister : Obligations.ReferenceMapReachesEachRegister := by
  intro c base w hwf hmap
  have hread := fun reg (hreg : RefExists c reg) => read_at_register hwf hmap hreg
  have hwrite := fun reg (hreg : RefExists c reg) p (hp : refWrite reg = some p) => write_at_register hwf hmap hreg hp w
  refine ⟨fun s hs => ⟨hread (.prio s) hs, ?_⟩, fun k hk => ?_, fun t ht => ⟨fun k hk => ?_, ?_, ?_, ?_, ?_⟩,
    fun addr h4 hprio hpacked htarget => ?_, fun addr n hmisfit => ?_⟩
  · exact (hwrite (.prio s) hs _ rfl).trans (if_pos hs)
  · rw [Nat.add_assoc]
    exact ⟨hread (.pending k) hk, write_at_pending hwf hmap hk w⟩
  · have hreg : RefExists c (.enable t k) := (Bool.and_eq_true _ _).mpr ⟨ht, hk⟩
    rw [Nat.add_assoc, Nat.add_assoc, ← Nat.add_assoc 0x2000]
    exact ⟨hread _ hreg, (hwrite _ hreg _ rfl).trans (if_pos hreg)⟩
  · rw [Nat.add_assoc]
    exact hread (.threshold t) ht
  · rw [Nat.add_assoc]
    exact (hwrite (.threshold t) ht _ rfl).trans (if_pos ht)
  · rw [Nat.add_assoc]
    exact hread (.claimComplete t) ht
  · rw [Nat.add_assoc]
    refine (hwrite (.claimComplete t) ht _ rfl).trans ?_
    simp [writeMsg, msgInRange, ht]
  · refine access_elsewhere hwf hmap h4 (fun reg hreg => ?_) w
    cases reg with
    | prio s => exact hprio s hreg
    | pending k => exact Nat.add_assoc base _ _ ▸ (hpacked k hreg).1
    | enable t k =>
      obtain ⟨ht, hk⟩ := (Bool.and_eq_true _ _).mp hreg
      have hne := (hpacked k hk).2 t ht
      simp only [refOffset]
      omega
    | threshold t => exact Nat.add_assoc base _ _ ▸ (htarget t hreg).1
    | claimComplete t => exact Nat.add_assoc base _ _ ▸ (htarget t hreg).2
  · exact access_of_misfit (by simpa [hmap, accessFits, ← not_and_or] using hmisfit) w

/-! Separation of targets. -/

theorem handlerTarget_eq_some (m : Msg) (t : Nat) :
    m.handlerTarget = some t ↔ m = .claim t ∨ m = .rthr t ∨ (∃ v, m = .wthr t v) ∨ ∃ s, m = .complete t s := by
  cases m <;> simp [Msg.handlerTarget]

/-- The value written has no part in whose handler needs the register. -/
theorem writeMsg_handlerTarget (w w' : Nat) (p : WritePort) :
    (writeMsg w p).handlerTarget = (writeMsg w' p).handlerTarget := by
  cases p <;> rfl

/-- A register is for the same handler read or written. -/
theorem refWrite_handlerTarget {reg : RefRegister} {p : WritePort} (h : refWrite reg = some p) (w : Nat) :
    (writeMsg w p).handlerTarget = (readMsg (refRead reg)).handlerTarget := by
  cases reg <;> cases h <;> rfl

/-- The page of a register says whose handler needs it (spec/30_encoding.md R102). -/
theorem refRegister_handlerTarget {off : Nat} {reg : RefRegister} (h : refRegister off = some reg) :
    (readMsg (refRead reg)).handlerTarget = if off / 4096 < 512 then none else some (off / 4096 - 512) := by
  unfold refRegister at h
  split_ifs at h <;> obtain rfl := Option.some.inj h <;> simp only [refRead, readMsg, Msg.handlerTarget]
  case pos | pos | pos => rw [if_pos (by omega)]
  all_goals
    rw [if_neg (by omega), Option.some.injEq]
    omega

/-- The access of `a`, read or written, stands for the message `m`. -/
def StandsFor (c : Cfg) (a n w : Nat) (m : Msg) : Prop :=
  busReadMeaning c a n = .message m ∨ busWriteMeaning c a n w = .message m

theorem reference_handlerTarget {c : Cfg} {base a n w : Nat} {m : Msg} (hmap : c.regMap = .reference base)
    (h : StandsFor c a n w m) :
    base ≤ a ∧ m.handlerTarget = if (a - base) / 4096 < 512 then none else some ((a - base) / 4096 - 512) := by
  obtain h | h := h
  · obtain ⟨p, hp, rfl, -⟩ := busReadMeaning_message h
    obtain ⟨hle, reg, hreg, rfl⟩ := readPort?_reference hmap hp
    exact ⟨hle, refRegister_handlerTarget hreg⟩
  · obtain ⟨p, hp, rfl, -⟩ := busWriteMeaning_message h
    obtain ⟨hle, reg, hreg, hwrite⟩ := writePort?_reference hmap hp
    exact ⟨hle, (refWrite_handlerTarget hwrite w).trans (refRegister_handlerTarget hreg)⟩

/-- The entries that R100's condition on a listed map compares: each register's region and the handler that needs it. -/
def listedHandlers (granule : Nat) (reads : List (Nat × ReadPort)) (writes : List (Nat × WritePort)) :
    List (Nat × Option Nat) :=
  reads.map (fun e => (e.1 / granule, (readMsg e.2).handlerTarget))
    ++ writes.map fun e => (e.1 / granule, (writeMsg 0 e.2).handlerTarget)

theorem separable_iff (granule : Nat) (reads : List (Nat × ReadPort)) (writes : List (Nat × WritePort)) :
    separable granule reads writes = true ↔ ∀ e ∈ listedHandlers granule reads writes,
      ∀ e' ∈ listedHandlers granule reads writes, e.1 = e'.1 → e.2 = e'.2 := by
  simp only [separable, listedHandlers, List.all_eq_true, decide_eq_true_eq]

theorem mem_listedHandlers {c : Cfg} {xw granule a n w : Nat} {reads : List (Nat × ReadPort)}
    {writes : List (Nat × WritePort)} {m : Msg} (hmap : c.regMap = .table xw granule reads writes)
    (h : StandsFor c a n w m) : (a / granule, m.handlerTarget) ∈ listedHandlers granule reads writes := by
  obtain h | h := h
  · obtain ⟨p, hp, rfl, -⟩ := busReadMeaning_message h
    simp only [hmap, readPort?, Option.map_eq_some_iff] at hp
    obtain ⟨e, he, rfl⟩ := hp
    obtain rfl : e.1 = a := by simpa using List.find?_some he
    exact List.mem_append_left _ (List.mem_map_of_mem (List.mem_of_find?_eq_some he))
  · obtain ⟨p, hp, rfl, -⟩ := busWriteMeaning_message h
    simp only [hmap, writePort?, Option.map_eq_some_iff] at hp
    obtain ⟨e, he, rfl⟩ := hp
    obtain rfl : e.1 = a := by simpa using List.find?_some he
    rw [writeMsg_handlerTarget w 0]
    exact List.mem_append_right _ (List.mem_map_of_mem (f := fun e : Nat × WritePort =>
      (e.1 / granule, (writeMsg 0 e.2).handlerTarget)) (List.mem_of_find?_eq_some he))

theorem table_separable {c : Cfg} {xw granule : Nat} {reads : List (Nat × ReadPort)} {writes : List (Nat × WritePort)}
    (h : c.wf = true) (hmap : c.regMap = .table xw granule reads writes) : separable granule reads writes = true := by
  simp only [Cfg.wf, hmap, RegMap.wf, Bool.and_eq_true] at h
  obtain ⟨⟨-, -, hsep⟩, -⟩ := h
  exact hsep

/-- Settles O60: on either map the region alone tells whose handler needs what stands there. -/
theorem referenceMapSeparatesTargets : Obligations.ReferenceMapSeparatesTargets := by
  intro c region a a' t n n' w w' m m' hwf hmap hm hm' hregion ht
  have hsame : m.handlerTarget = m'.handlerTarget := by
    obtain ⟨base, hmap, rfl⟩ | ⟨xw, reads, writes, hmap⟩ := hmap
    · obtain ⟨hbase, -⟩ := reference_wf hwf hmap
      obtain ⟨hle, hhandler⟩ := reference_handlerTarget hmap hm
      obtain ⟨hle', hhandler'⟩ := reference_handlerTarget hmap hm'
      have hpage : (a - base) / 4096 = (a' - base) / 4096 := by omega
      rw [hhandler, hhandler', hpage]
    · exact (separable_iff _ _ _).1 (table_separable hwf hmap) _ (mem_listedHandlers hmap hm) _
        (mem_listedHandlers hmap hm') hregion
  exact (handlerTarget_eq_some m' t).1 (hsame ▸ (handlerTarget_eq_some m t).2 ht)

end Sys2Proof.Proofs
end
